-- ==== Sys2Proof/Word.lean ====
section
/-! DEFINITION. The bit vectors and the numbered things of the Monrel 2416: bytes, words, addresses, times, and
the indices 0..15 of windows and nodes (00_scope.md, sections 0.5 and 0.7). Numbers the part adds, shifts, masks or
shifts out as bytes are bit vectors; indices and classes are `Fin`. -/

namespace Sys2Proof

/-- One byte of a frame, an argument or a response. -/
abbrev Byte := BitVec 8
/-- A 32-bit word of the host and memory ports; lane 0 is bits 7..0 (0.5, R187). -/
abbrev Word := BitVec 32
/-- The 24-bit byte address the host drives on HA23..HA0. -/
abbrev ByteAddr := BitVec 24
/-- A 22-bit word address, 0..4,194,303 (0.5). -/
abbrev WordAddr := BitVec 22
/-- A set of byte lanes 0..3 (R3). -/
abbrev Lanes := BitVec 4
/-- Byte mask of a span: bit 4k+b is byte lane b of word position k (R37, R66, R124). -/
abbrev SpanMask := BitVec 16
/-- Span offset 0..262,143 (R37, R66). -/
abbrev SpanOffset := BitVec 18
/-- The four data words of a span, positions 0..3 (R37). -/
abbrev SpanWords := Vector Word 4
/-- A value of the 32-bit microsecond timebase (R155). -/
abbrev Time := BitVec 32
/-- A 16-bit wrapping acceptance number of the Apply Queue (R125, R126). -/
abbrev AccNo := BitVec 16
/-- One of the sixteen windows W0..W15 (R18). -/
abbrev WinIdx := Fin 16
/-- A node ID 0..15 (R142, R157). -/
abbrev NodeId := Fin 16
/-- A priority class 0..3; 3 is highest (R37). -/
abbrev PrioClass := Fin 4
/-- A word position 0..3 of a span (R37, R124). -/
abbrev Position := Fin 4
/-- A set of the fourteen causes: bit n-1 stands for cause n (R161). -/
abbrev CauseSet := BitVec 14

end Sys2Proof
end

