-- ==== Sys2Proof/Syntax.lean ====
section
/-! DEFINITION. The commands the block takes from outside: one constructor of `Instr` for each row of
spec/opcode_table.json, with the operands the row's event brings with it (pin levels, received bytes, argument
bytes). The block has no instruction words; each constructor names its row and the rule that owns it. -/

namespace Sys2Proof

/-- Direction of a host or memory cycle (R1). -/
inductive Direction where
  | read
  | write
  deriving DecidableEq, Repr

/-- A received symbol (section 4.1): a data symbol, IDLE, START, END, or an invalid code group. -/
inductive Symbol where
  | data (v : Byte)
  | idle
  | startFrame
  | endFrame
  | invalid
  deriving DecidableEq, Repr

/-- An edge of MCLK (R174): MDI is sampled at a rising edge. -/
inductive MclkEdge where
  | rising (mdi : Bool)
  | falling
  deriving DecidableEq, Repr

/-- The commands of the block, one for each row of the opcode table. -/
inductive Instr where
  /-- HOST_CYCLE_ACCEPTANCE (R2): the host lowers HSTB_N with address, direction, byte enables and data; the cycle is
  accepted when R2 allows. -/
  | hostCycleAcceptance (addr : ByteAddr) (dir : Direction) (lanes : Lanes) (data : Word)
  /-- REFUSED_WRITE_COMPLETION (R14). -/
  | refusedWriteCompletion
  /-- MEMORY_CYCLE_COMPLETION (R132): SACK is sampled high; `sd` is what memory drives on SD31..SD0, read by a
  read cycle on the lanes it does not enable (assumption 3). -/
  | memoryCycleCompletion (sd : Word)
  /-- PUBLISH_HOLD_EXPIRY (R46). -/
  | publishHoldExpiry
  /-- SIGNAL_DETECTED (R59): the signal detector finds a transition on the inbound line. -/
  | signalDetected
  /-- LOSS_OF_SIGNAL (R59). -/
  | lossOfSignal
  /-- LINK_UP (R60). -/
  | linkUp
  /-- ALIGNMENT_LOST (R61). -/
  | alignmentLost
  /-- FRAME_CUT_OFF (R64): the symbol that cuts the partial frame off. -/
  | frameCutOff (sym : Symbol)
  /-- FRAME_ARRIVAL (R102): the END of a frame whose data symbols were `bytes`. -/
  | frameArrival (bytes : List Byte)
  /-- TRANSMISSION_COMPLETION (R73). -/
  | transmissionCompletion
  /-- RETURN_TIMER_EXPIRY (R90). -/
  | returnTimerExpiry
  /-- ANNOUNCE_TIMER_EXPIRY (R96). -/
  | announceTimerExpiry
  /-- BACKOFF_EXPIRY (R92). -/
  | backoffExpiry
  /-- HARD_RESET (R158): the fall of RESET_N. -/
  | hardReset
  /-- RESET_RELEASE (R157): the rise of RESET_N with the straps NID3..NID0. -/
  | resetRelease (straps : NodeId)
  /-- TRANSACTION_BEGIN (R173): a falling edge of MSEL_N. -/
  | transactionBegin
  /-- TRANSACTION_END (R176): a rising edge of MSEL_N. -/
  | transactionEnd
  /-- IDENT (R181). -/
  | ident
  /-- STATUS (R182). -/
  | status
  /-- READ_PARAMS (R183). -/
  | readParams
  /-- SET_PARAMS (R184). -/
  | setParams (rto phl : BitVec 16) (retryLimit : Byte) (nakBackoff : BitVec 16)
  /-- SOFT_RESET (R185). -/
  | softReset
  /-- READ_WINDOW (R25). -/
  | readWindow (n : Byte)
  /-- WRITE_WINDOW (R26): the index byte and the nine configuration bytes, base as its three bytes. -/
  | writeWindow (n kind : Byte) (base : BitVec 24) (sizeCode channel cls combine policy : Byte)
  /-- ENABLE_WINDOW (R28). -/
  | enableWindow (n : Byte)
  /-- DISABLE_WINDOW (R30). -/
  | disableWindow (n : Byte)
  /-- CLEAR_WINDOW (R34). -/
  | clearWindow (n : Byte)
  /-- FLUSH (R53). -/
  | flush (c : Byte)
  /-- READ_SOURCE (R122). -/
  | readSource (n : Byte)
  /-- START (R144). -/
  | start
  /-- STOP (R145). -/
  | stop
  /-- READ_EVENTS (R167). -/
  | readEvents
  /-- SET_ENABLES (R168): the sixteen-bit set of causes. -/
  | setEnables (set : BitVec 16)
  /-- ACK_EVENTS (R169): the sixteen-bit set of causes. -/
  | ackEvents (set : BitVec 16)
  /-- TAKE_INCIDENT (R170). -/
  | takeIncident
  /-- UNKNOWN_COMMAND (R175): a first byte that names no command. -/
  | unknownCommand (code : Byte)
  /-- SYMBOL_RECEIVED (R63): a ten-bit code group, its first bit the most significant. -/
  | symbolReceived (group : BitVec 10)
  /-- TIMEBASE_ADVANCE (R155): the fiftieth period of the reference clock. -/
  | timebaseAdvance
  /-- MCLK_EDGE (R174). -/
  | mclkEdge (edge : MclkEdge)
  /-- HSTB_N_RELEASE (R2): the host raises HSTB_N. -/
  | hstbNRelease
  deriving DecidableEq, Repr

end Sys2Proof
end

