-- ==== Sys2Proof/WellFormed.lean ====
section
/-! DEFINITION. Which commands the hardware can present: the checks on operands that the operand types do not
already make. A command that fails its check names an event that cannot occur; the machine leaves the state as it is
for it (assumption 1). -/

namespace Sys2Proof

/-- The eighteen command codes of the management port (table of section 11.2, R189). -/
def namedCodes : List Byte :=
  [0x01, 0x02, 0x03, 0x04, 0x0A, 0x10, 0x11, 0x12, 0x13, 0x14, 0x20, 0x28, 0x30, 0x31, 0x40, 0x41, 0x42, 0x43]

/-- A whole frame holds at most 27 bytes (R63); END completes a frame and never cuts one off (R63, R64); UNKNOWN is
only a code outside the table (R175). -/
def Instr.wellFormed : Instr → Bool
  | .frameCutOff sym => sym != .endFrame
  | .frameArrival bytes => bytes.length ≤ 27
  | .unknownCommand code => !namedCodes.contains code
  | .hostCycleAcceptance _ _ _ _ => true
  | .refusedWriteCompletion => true
  | .memoryCycleCompletion _ => true
  | .publishHoldExpiry => true
  | .signalDetected => true
  | .lossOfSignal => true
  | .linkUp => true
  | .alignmentLost => true
  | .transmissionCompletion => true
  | .returnTimerExpiry => true
  | .announceTimerExpiry => true
  | .backoffExpiry => true
  | .hardReset => true
  | .resetRelease _ => true
  | .transactionBegin => true
  | .transactionEnd => true
  | .ident => true
  | .status => true
  | .readParams => true
  | .setParams _ _ _ _ => true
  | .softReset => true
  | .readWindow _ => true
  | .writeWindow _ _ _ _ _ _ _ _ => true
  | .enableWindow _ => true
  | .disableWindow _ => true
  | .clearWindow _ => true
  | .flush _ => true
  | .readSource _ => true
  | .start => true
  | .stop => true
  | .readEvents => true
  | .setEnables _ => true
  | .ackEvents _ => true
  | .takeIncident => true
  | .symbolReceived _ => true
  | .timebaseAdvance => true
  | .mclkEdge _ => true
  | .hstbNRelease => true

end Sys2Proof
end

