-- ==== Sys2Proof/Decode.lean ====
section
/-! DEFINITION. The commands that words of the opcode table spell. The table of this block gives no row any bits
(every row's "fields" is empty and none has "fixed"), so no word spells a command. The command codes of the
management port (R189) are bytes of a transaction and are decoded in Machine/Management.lean. -/

namespace Sys2Proof

/-- No row of the table gives bits, so no word spells a command. -/
def decodeTableWord (_nbits _w : Nat) : Option Instr := none

end Sys2Proof
end

