-- ==== Sys2Proof/Config.lean ====
section
/-! DEFINITION. The fixed quantities of the part (00_scope.md 0.7) and the values the spec fixes for this
implementation. The spec leaves no result of a command to an unspecified value that the block itself computes, so
no uninterpreted constant stands here: values from outside (host data, the strapped node ID, the levels memory
drives on the lanes a read does not enable) are operands of the commands. -/

namespace Sys2Proof.Config

/-- Publish Queue places in all (R38). -/
@[simp] abbrev pqCapacity : Nat := 32
/-- Publish Queue places classes 0..2 may take together (R38, R41). -/
@[simp] abbrev pqLowCapacity : Nat := 28
/-- In-Flight List entries (R80). -/
@[simp] abbrev iflCapacity : Nat := 16
/-- Transit FIFO frames (R71). -/
@[simp] abbrev fifoCapacity : Nat := 4
/-- Apply Queue entries (R125). -/
@[simp] abbrev aqCapacity : Nat := 24
/-- Incident Queue records (R166). -/
@[simp] abbrev incidentCapacity : Nat := 8
/-- Consecutive valid symbols that bring the link up (R60). -/
@[simp] abbrev alignRun : Nat := 32
/-- Consecutive invalid symbols that lose alignment (R61). -/
@[simp] abbrev loseRun : Nat := 4
/-- Bytes a partial frame may hold; the 28th cuts it off (R63). -/
@[simp] abbrev maxPartial : Nat := 27
/-- Microseconds without a transition that are a loss of signal (R59). -/
@[simp] abbrev lossOfSignalTime : Nat := 2
/-- The starvation count stops here (R74). -/
@[simp] abbrev starvationLimit : Nat := 8
/-- Weight of a bad or cut-off frame on LIF (R149). -/
@[simp] abbrev badFrameWeight : Nat := 6
/-- Weight of a transit drop on LIF (R149). -/
@[simp] abbrev transitDropWeight : Nat := 3
/-- Weight of a timer expiry or an out-of-order return on RTF (R150). -/
@[simp] abbrev lostReturnWeight : Nat := 6
/-- Weight of an objected return on RTF (R150). -/
@[simp] abbrev objectionWeight : Nat := 1
/-- A counter at this value or above isolates the node (R152, row 1). -/
@[simp] abbrev isolateAt : Nat := 240
/-- A counter at this value or above degrades a NORMAL node (R152, row 2). -/
@[simp] abbrev degradeAt : Nat := 96
/-- Both counters at this value or below restore NORMAL (R152, row 3). -/
@[simp] abbrev restoreAt : Nat := 63
/-- Part code of IDENT (R190). -/
@[simp] abbrev partCode : BitVec 16 := 0x2416#16
/-- Revision number of IDENT for the parts the manual describes (R190). -/
@[simp] abbrev revision : Byte := 1#8

end Sys2Proof.Config
end

