-- ==== Sys2Proof/Machine/State.lean ====
section
/-! DEFINITION. The state of the block as plain data, one record for each block of the manual (section 0.3), and the
state after reset. Every field names the rule that gives it; a field that is the model's own says so. -/

namespace Sys2Proof.Machine

/-! ## The Host Path (R1, R2, R14) -/

/-- Progress of the current host cycle (R1). -/
inductive PathState where
  | free
  | holding
  | requesting
  | memory
  deriving DecidableEq, Repr

/-- Which hold the cycle is in, if any (R1). -/
inductive HoldState where
  | noHold
  | publishHold
  | readHold
  deriving DecidableEq, Repr

/-- Classification of an accepted host cycle (R5). -/
inductive HostClass where
  | plain
  | publish
  | unpublished
  | localWrite
  | refused
  deriving DecidableEq, Repr

/-- What the host drives while HSTB_N is low (R2, R3). -/
structure HostCycle where
  addr : ByteAddr
  dir : Direction
  lanes : Lanes
  data : Word
  deriving DecidableEq, Repr

/-- The cycle record (R1): write data absent for a read, window absent for PLAIN. -/
structure CycleRecord where
  word : WordAddr
  dir : Direction
  lanes : Lanes
  data : Option Word
  cls : HostClass
  window : Option WinIdx
  deriving DecidableEq, Repr

/-- The Host Path (R1) with its pins: HERR and the one-clock delay of a refused completion (R14), HD while the part
drives it (11.3), the cycle the host presents (`none`: HSTB_N high) and whether HSTB_N has been high since the previous
cycle was accepted, so that the cycle presented is a new one (R2; assumption 6). `completions` and `returned` are the
model's own: the count of completions signalled with HRDY and the data of the last completed read, so that a completion
under RESET_N low (R16), or one after HSTB_N has risen, leaves a trace (assumption 13). -/
structure HostPath where
  path : PathState
  cycle : Option CycleRecord
  hold : HoldState
  holdMark : AccNo
  holdStart : Time
  refusedDelay : Bool
  herr : Bool
  hd : Option Word
  presented : Option HostCycle
  strobeHighSince : Bool
  completions : Nat
  returned : Option Word
  deriving DecidableEq, Repr

/-! ## The Window Table (R18) -/

/-- Kind of a window (R18). -/
inductive WindowKind where
  | owned
  | mirror
  deriving DecidableEq, Repr

/-- Local-write policy of a MIRROR window (R18). -/
inductive WritePolicy where
  | accept
  | refuse
  deriving DecidableEq, Repr

/-- One window record (R18); the queued count is computed (R23). -/
structure Window where
  kind : WindowKind
  enabled : Bool
  base : WordAddr
  sizeCode : Byte
  channel : Byte
  cls : PrioClass
  combine : Bool
  policy : WritePolicy
  diverged : Bool
  stale : Bool
  updates : BitVec 32
  deriving DecidableEq, Repr

/-! ## The Publish Queue (R37, R38, R44) -/

/-- A Publish Queue entry (R37). -/
structure PqEntry where
  channel : Byte
  span : SpanOffset
  words : SpanWords
  mask : SpanMask
  cls : PrioClass
  window : WinIdx
  deriving DecidableEq, Repr

/-- A capture request (R9); the held request of a PUBLISH_HOLD is one (R44). -/
structure CaptureRequest where
  channel : Byte
  cls : PrioClass
  combine : Bool
  window : WinIdx
  span : SpanOffset
  pos : Position
  lanes : Lanes
  data : Word
  deriving DecidableEq, Repr

/-- The four class lists, head (oldest) first, and the held request (R38, R44). -/
structure PublishQueue where
  class0 : List PqEntry
  class1 : List PqEntry
  class2 : List PqEntry
  class3 : List PqEntry
  held : Option CaptureRequest
  deriving DecidableEq, Repr

/-! ## The Origination Unit and the In-Flight List (R79, R80) -/

/-- State of an In-Flight List entry (R80). -/
inductive FlightState where
  | sent
  | awaitingResend
  deriving DecidableEq, Repr

/-- An In-Flight List entry (R80). -/
structure IflEntry where
  seq : Byte
  retry : Byte
  state : FlightState
  departure : Time
  channel : Byte
  span : SpanOffset
  mask : SpanMask
  words : SpanWords
  window : WinIdx
  deriving DecidableEq, Repr

/-- State of the announce record (R79). -/
inductive AnnounceState where
  | awaitingSend
  | sent
  deriving DecidableEq, Repr

/-- The announce record (R79). -/
structure AnnounceRecord where
  startSeq : Byte
  retry : Byte
  state : AnnounceState
  departure : Time
  deriving DecidableEq, Repr

/-- The Origination Unit (R79) with the In-Flight List, head first (R80). The resend pointer names its entry by
sequence number, which is unique in the list; `backoff` holds the start time while the timer is RUNNING. -/
structure Origination where
  nextSeq : Byte
  announce : Option AnnounceRecord
  resend : Option Byte
  backoff : Option Time
  staleReturns : BitVec 16
  flight : List IflEntry
  deriving DecidableEq, Repr

/-! ## Links, frames, Transit FIFO and Output Arbiter (R58, R65, R71, R73) -/

/-- Condition of the inbound link (R58). -/
inductive InboundState where
  | noSignal
  | aligning
  | up
  deriving DecidableEq, Repr

/-- Condition of the outbound link (R58). -/
inductive OutboundState where
  | quiet
  | running
  deriving DecidableEq, Repr

/-- The Link Interface (R58). `assembly` is the partial frame; `groupBoundary` is the place of the receiver's group
boundary in the bit stream, modulo a group of ten bits (R188). -/
structure LinkInterface where
  inbound : InboundState
  validRun : Nat
  invalidRun : Nat
  lastTransition : Time
  assembly : Option (List Byte)
  skip : Bool
  outbound : OutboundState
  orphans : BitVec 16
  groupBoundary : Fin 10
  deriving DecidableEq, Repr

/-- What a frame carries beyond its header (R66, R67): `words` are the present words in increasing order of
position. -/
inductive FrameBody where
  | update (channel : Byte) (span : SpanOffset) (mask : SpanMask) (words : List Word)
  | announce
  deriving DecidableEq, Repr

/-- A frame as a record (R65); its check is computed from the other fields (R68). -/
structure Frame where
  source : NodeId
  seq : Byte
  attempt : BitVec 2
  nak : Bool
  hops : BitVec 4
  body : FrameBody
  deriving DecidableEq, Repr

/-- The Transit FIFO, head first (R71), and the Output Arbiter: the frame being sent (`none`: IDLE_LINE, R73) and
the starvation count (R74). -/
structure OutputArbiter where
  fifo : List Frame
  sending : Option Frame
  starvation : Nat
  deriving DecidableEq, Repr

/-! ## The Sequence Table (R106) -/

/-- A Sequence Table entry (R106); `known` is its state KNOWN. -/
structure SeqEntry where
  known : Bool
  expected : Byte
  taken : BitVec 32
  duplicates : BitVec 16
  gaps : BitVec 16
  deriving DecidableEq, Repr

/-! ## The Apply Queue and the Memory Arbiter (R124, R125, R132) -/

/-- State of an Apply Queue entry (R124). -/
inductive ApplyState where
  | waiting
  | writing
  deriving DecidableEq, Repr

/-- An Apply Queue entry (R124). -/
structure AqEntry where
  acc : AccNo
  base : WordAddr
  mask : SpanMask
  words : SpanWords
  window : WinIdx
  state : ApplyState
  next : Position
  deriving DecidableEq, Repr

/-- The Apply Queue, head first, and the next acceptance number (R125). -/
structure ApplyQueue where
  entries : List AqEntry
  nextAcc : AccNo
  deriving DecidableEq, Repr

/-- Who the memory port serves (R132). -/
inductive Requester where
  | host
  | apply
  deriving DecidableEq, Repr

/-- The running memory cycle: its grant and what it carries (R13, R128, R132). -/
structure MemCycle where
  grant : Requester
  word : WordAddr
  dir : Direction
  lanes : Lanes
  data : Word
  deriving DecidableEq, Repr

/-- The Memory Arbiter (R132): the port is BUSY while `cycle` is present, whose `grant` is the current grant. -/
structure MemoryArbiter where
  cycle : Option MemCycle
  lastGrant : Requester
  deriving DecidableEq, Repr

/-- Local memory on the memory port: (byte address, byte) pairs, addresses strictly rising, no zero byte listed. An
address that is not listed reads 0 (assumption 2). -/
abbrev Memory := List Host.Cell

/-! ## Node Control (R142) -/

/-- Mode of the node (R142). -/
inductive Mode where
  | offline
  | joining
  | active
  | draining
  deriving DecidableEq, Repr

/-- Fault-confinement level (R142). -/
inductive Level where
  | normal
  | degraded
  | isolated
  deriving DecidableEq, Repr

/-- The parameter block (R156). -/
structure Params where
  rto : BitVec 16
  phl : BitVec 16
  retryLimit : Byte
  nakBackoff : BitVec 16
  deriving DecidableEq, Repr

/-- Node Control (R142). -/
structure NodeControl where
  mode : Mode
  level : Level
  lif : Byte
  rtf : Byte
  nodeId : NodeId
  params : Params
  timebase : Time
  deriving DecidableEq, Repr

/-! ## The Attention Unit and the Incident Queue (R161, R165, R166) -/

/-- One raising of a cause with the optional fields its incident carries (table of section 9.1, R165). -/
inductive Occurrence where
  | joinDone (seq : Byte)
  | drainDone
  | levelChange
  | linkChange
  | deliveryFailed (seq : Byte)
  | publishOverrun (window : WinIdx) (cls : PrioClass) (word : WordAddr)
  | refusedWrite (window : WinIdx) (word : WordAddr)
  | ownerConflict (window : WinIdx) (source : NodeId) (seq : Byte)
  | rangeError (window : WinIdx) (source : NodeId) (seq : Byte)
  | sourceAdopted (source : NodeId) (seq : Byte)
  | staleMarked (window : WinIdx)
  | divergedMarked (window : WinIdx)
  | transitDrop (source : NodeId) (seq : Byte)
  | unmatchedReturn (seq : Byte)
  deriving DecidableEq, Repr

/-- A record of the Incident Queue (R165). -/
structure Incident where
  what : Occurrence
  time : Time
  deriving DecidableEq, Repr

/-- Pending and enable flags (R161), the Incident Queue, head first, and its overflow flag (R166). -/
structure Attention where
  raisedSet : CauseSet
  enableSet : CauseSet
  queue : List Incident
  overflow : Bool
  deriving DecidableEq, Repr

/-! ## The Management Port (R173) -/

/-- Progress of the current transaction (R173). -/
inductive PortState where
  | deselected
  | receiving
  | responding
  | trailing
  deriving DecidableEq, Repr

/-- A decoded command byte (R175): one of the eighteen commands, or UNKNOWN with its byte. -/
inductive Command where
  | ident
  | status
  | readParams
  | setParams
  | softReset
  | readWindow
  | writeWindow
  | enableWindow
  | disableWindow
  | clearWindow
  | flush
  | readSource
  | start
  | stop
  | readEvents
  | setEnables
  | ackEvents
  | takeIncident
  | unknown (code : Byte)
  deriving DecidableEq, Repr

/-- The transaction of the Management Port (R173). `shift` holds the `bitCount` bits of the byte being received, the
latest lowest; the response position counts bits. -/
structure Transaction where
  port : PortState
  bitCount : Nat
  shift : Byte
  command : Option Command
  args : List Byte
  response : Option (List Byte)
  position : Nat
  removal : Option Incident
  dropFlag : Bool
  deriving DecidableEq, Repr

/-- The Management Port (R173) with the levels of its pins MSEL_N, MCLK and MDO (`none`: not driven, R174). -/
structure ManagementPort where
  txn : Transaction
  mselN : Bool
  mclk : Bool
  mdo : Option Bool
  deriving DecidableEq, Repr

/-! ## The whole block -/

/-- The state of the block: every record above, the level of RESET_N, local memory, and the queue of commands that
wait, first in, first out. `moments` is the model's own (assumption 25): how the events to come fall on moments. Each
number is that of the events of one moment that leave the arbiters' choices to a later event of it; past the end of the
list every event is a moment of its own. -/
structure State where
  resetN : Bool
  host : HostPath
  windows : Vector Window 16
  pq : PublishQueue
  orig : Origination
  link : LinkInterface
  out : OutputArbiter
  sources : Vector SeqEntry 16
  aq : ApplyQueue
  arb : MemoryArbiter
  node : NodeControl
  attn : Attention
  mgmt : ManagementPort
  mem : Memory
  pending : List Instr
  moments : List Nat
  deriving DecidableEq, Repr

/-- No command stops the block: the spec gives every row an effect, so nothing raises a fault. -/
inductive Fault where
  deriving DecidableEq, Repr

/-- Why a command is refused. -/
inductive Refusal where
  /-- Raised by `exec` alone, for a row that has no meaning yet; safe. No arm of this model raises it. -/
  | notModelled (mnemonic : String)
  deriving DecidableEq, Repr

/-- A window record after a hard reset (R35). -/
def Window.reset : Window :=
  { kind := .owned, enabled := false, base := 0, sizeCode := 0, channel := 0, cls := 0, combine := false,
    policy := .accept, diverged := false, stale := false, updates := 0 }

/-- A Sequence Table entry after a hard reset (R123). -/
def SeqEntry.reset : SeqEntry :=
  { known := false, expected := 0, taken := 0, duplicates := 0, gaps := 0 }

/-- The Host Path after a hard reset with no cycle in progress (section 1.8) and no cycle presented. -/
def HostPath.reset : HostPath :=
  { path := .free, cycle := none, hold := .noHold, holdMark := 0, holdStart := 0, refusedDelay := false,
    herr := false, hd := none, presented := none, strobeHighSince := true, completions := 0
    returned := none }

/-- The Publish Queue after a hard reset (R56). -/
def PublishQueue.reset : PublishQueue :=
  { class0 := [], class1 := [], class2 := [], class3 := [], held := none }

/-- The Origination Unit after a hard reset (R100). -/
def Origination.reset : Origination :=
  { nextSeq := 0, announce := none, resend := none, backoff := none, staleReturns := 0, flight := [] }

/-- The Link Interface while RESET_N is low (R76); the place of the group boundary is assumption 4. -/
def LinkInterface.reset : LinkInterface :=
  { inbound := .noSignal, validRun := 0, invalidRun := 0, lastTransition := 0, assembly := none, skip := true,
    outbound := .quiet, orphans := 0, groupBoundary := 0 }

/-- The Transit FIFO and the Output Arbiter after a hard reset (R77). -/
def OutputArbiter.reset : OutputArbiter := { fifo := [], sending := none, starvation := 0 }

/-- The Apply Queue after a hard reset (R140). -/
def ApplyQueue.reset : ApplyQueue := { entries := [], nextAcc := 0 }

/-- The Memory Arbiter after a hard reset with no cycle in progress (R140). -/
def MemoryArbiter.reset : MemoryArbiter := { cycle := none, lastGrant := .host }

/-- The defaults of the parameter block (R156). -/
def Params.default : Params := { rto := 2000, phl := 50, retryLimit := 16, nakBackoff := 20 }

/-- Node Control after a hard reset (R142, R158); the node ID before any sampling is assumption 5. -/
def NodeControl.reset : NodeControl :=
  { mode := .offline, level := .normal, lif := 0, rtf := 0, nodeId := 0, params := Params.default, timebase := 0 }

/-- The Attention Unit after a reset (R172). -/
def Attention.reset : Attention := { raisedSet := 0, enableSet := 0, queue := [], overflow := false }

/-- No transaction (R173, R180). -/
def Transaction.idle : Transaction :=
  { port := .deselected, bitCount := 0, shift := 0, command := none, args := [], response := none, position := 0,
    removal := none, dropFlag := false }

/-- The Management Port after a hard reset with MSEL_N high and MCLK idle low (R174, R180). -/
def ManagementPort.reset : ManagementPort :=
  { txn := Transaction.idle, mselN := true, mclk := false, mdo := none }

/-- The block right after the rise of RESET_N (R158): every block at its hard-reset value, the outbound link RUNNING,
nothing presented at any port, no command waiting. -/
def State.reset : State :=
  { resetN := true
    host := HostPath.reset
    windows := Vector.replicate 16 Window.reset
    pq := PublishQueue.reset
    orig := Origination.reset
    link := { LinkInterface.reset with outbound := .running }
    out := OutputArbiter.reset
    sources := Vector.replicate 16 SeqEntry.reset
    aq := ApplyQueue.reset
    arb := MemoryArbiter.reset
    node := NodeControl.reset
    attn := Attention.reset
    mgmt := ManagementPort.reset
    mem := []
    pending := []
    moments := [] }

/-! ## Whole-block updates, one for each field (their lemmas are in Laws/State.lean) -/

def State.withResetN (s : State) (v : Bool) : State := { s with resetN := v }
def State.withHost (s : State) (v : HostPath) : State := { s with host := v }
def State.withWindows (s : State) (v : Vector Window 16) : State := { s with windows := v }
def State.withPq (s : State) (v : PublishQueue) : State := { s with pq := v }
def State.withOrig (s : State) (v : Origination) : State := { s with orig := v }
def State.withLink (s : State) (v : LinkInterface) : State := { s with link := v }
def State.withOut (s : State) (v : OutputArbiter) : State := { s with out := v }
def State.withSources (s : State) (v : Vector SeqEntry 16) : State := { s with sources := v }
def State.withAq (s : State) (v : ApplyQueue) : State := { s with aq := v }
def State.withArb (s : State) (v : MemoryArbiter) : State := { s with arb := v }
def State.withNode (s : State) (v : NodeControl) : State := { s with node := v }
def State.withAttn (s : State) (v : Attention) : State := { s with attn := v }
def State.withMgmt (s : State) (v : ManagementPort) : State := { s with mgmt := v }
def State.withMem (s : State) (v : Memory) : State := { s with mem := v }
def State.withPending (s : State) (v : List Instr) : State := { s with pending := v }
def State.withMoments (s : State) (v : List Nat) : State := { s with moments := v }

/-- An event in progress: the state as it stands and the causes the event has raised so far, oldest first. The
incidents of one event are appended together at its end, in the order of R163. -/
structure Event extends State where
  raised : List Occurrence
  deriving DecidableEq, Repr

end Sys2Proof.Machine
end

