-- ==== Sys2Proof/Machine/Ops.lean ====
section
/-! DEFINITION. Operations every block uses: events, interval comparison, saturating counts, and local memory. -/

namespace Sys2Proof.Machine

/-! ## Events -/

/-- An event begins with no cause raised. -/
def Event.begin (s : State) : Event := { toState := s, raised := [] }

/-- Change the state within an event. -/
def Event.on (e : Event) (f : State → State) : Event := { e with toState := f e.toState }

/-- Raise a cause within an event (R162). -/
def Event.raise (e : Event) (o : Occurrence) : Event := { e with raised := e.raised ++ [o] }

/-! ## Intervals and counts -/

/-- An interval has run out: the timebase minus the recorded time, modulo 2^32, is at least the limit (R155). -/
def elapsed (now start : Time) (limit : Nat) : Bool := limit ≤ (now - start).toNat

/-- Add to a counter that stops at 255 (R149, R150). -/
def satAdd (b : Byte) (n : Nat) : Byte := BitVec.ofNat 8 (min 255 (b.toNat + n))

/-- Take one from a counter that stops at 0 (R149, R150). -/
def satPred (b : Byte) : Byte := if b = 0 then 0 else b - 1

/-- Add one to a counter that stops at 65,535 (R58, R79, R106). -/
def satSucc16 (b : BitVec 16) : BitVec 16 := if b = 0xFFFF#16 then b else b + 1

/-! ## Local memory -/

/-- The byte at an address; an address not listed reads 0 (assumption 2). -/
def Memory.readByte (m : Memory) (a : Nat) : Byte :=
  match m.find? (fun c => c.1 == a) with
  | some c => c.2
  | none => 0

/-- Write one byte, keeping the list in its canonical form. -/
def Memory.writeByte : Memory → Nat → Byte → Memory
  | [], a, b => if b = 0 then [] else [(a, b)]
  | (k, v) :: m, a, b =>
    if a < k then
      if b = 0 then (k, v) :: m else (a, b) :: (k, v) :: m
    else if a = k then
      if b = 0 then m else (a, b) :: m
    else (k, v) :: Memory.writeByte m a b

/-- The canonical form: addresses strictly rising inside the 24-bit byte address space, no listed byte 0. -/
abbrev Memory.wf (m : Memory) : Prop :=
  m.Pairwise (fun c d => c.1 < d.1) ∧ ∀ c ∈ m, c.1 < 2 ^ 24 ∧ c.2 ≠ 0

/-- Byte address of a lane of a word: lane 0 is the lowest byte address (R3). -/
def laneAddr (w : WordAddr) (lane : Nat) : Nat := 4 * w.toNat + lane

/-- The word at a word address, lane 0 in bits 7..0 (R3, R187). -/
def Memory.readWord (m : Memory) (w : WordAddr) : Word :=
  m.readByte (laneAddr w 3) ++ m.readByte (laneAddr w 2) ++ m.readByte (laneAddr w 1) ++ m.readByte (laneAddr w 0)

/-- Write one lane of a word when it is enabled. -/
def Memory.writeLane (m : Memory) (w : WordAddr) (lanes : Lanes) (data : Word) (lane : Nat) : Memory :=
  if lanes.getLsbD lane then m.writeByte (laneAddr w lane) (data.extractLsb' (8 * lane) 8) else m

/-- A memory write cycle writes the enabled lanes and keeps the others (R3, R129). -/
def Memory.writeWord (m : Memory) (w : WordAddr) (lanes : Lanes) (data : Word) : Memory :=
  (((m.writeLane w lanes data 0).writeLane w lanes data 1).writeLane w lanes data 2).writeLane w lanes data 3

end Sys2Proof.Machine
end

