-- ==== Sys2Proof/Machine/Operands.lean ====
section
/-! DEFINITION. Layouts: byte lanes and spans, byte order, the line code (R188), frames on the wire with their check
(R68, R69, R187). -/

namespace Sys2Proof.Machine

/-! ## Lanes, masks and spans -/

/-- The 32-bit mask of a set of byte lanes. -/
def laneBits (l : Lanes) : Word :=
  (if l.getLsbD 3 then 0xFF#8 else 0#8) ++ (if l.getLsbD 2 then 0xFF#8 else 0#8) ++
    (if l.getLsbD 1 then 0xFF#8 else 0#8) ++ (if l.getLsbD 0 then 0xFF#8 else 0#8)

/-- The bytes of `new` in the lanes of `l`, the bytes of `old` in the others. -/
def mergeLanes (old new : Word) (l : Lanes) : Word := (old &&& ~~~laneBits l) ||| (new &&& laneBits l)

/-- The four mask bits of a word position (R37: bit 4k+b is lane b of position k). -/
def maskLanes (m : SpanMask) (k : Position) : Lanes := m.extractLsb' (4 * k.val) 4

/-- A position is present when its four mask bits are not all clear (R37, R66, R124). -/
def present (m : SpanMask) (k : Position) : Bool := maskLanes m k != 0

/-- The four positions in increasing order. -/
def allPositions : List Position := [0, 1, 2, 3]

/-- The present positions, in increasing order. -/
def presentPositions (m : SpanMask) : List Position := allPositions.filter (present m)

/-- N of an UPDATE (R66, R69). -/
def presentCount (m : SpanMask) : Nat := (presentPositions m).length

/-- The lanes `l` of position `k` as bits of a span mask. -/
def spanLanes (k : Position) (l : Lanes) : SpanMask := l.setWidth 16 <<< (4 * k.val)

/-- The lowest present position (R124). -/
def lowestPresent (m : SpanMask) : Position := ((presentPositions m).head?).getD 0

/-- The next present position above `k`, if any (R129). -/
def nextPresent (m : SpanMask) (k : Position) : Option Position := (presentPositions m).find? (fun j => k < j)

/-- The present words of a span in increasing order of position, the bytes whose mask bits are clear as held
(R37, R66). -/
def presentWords (m : SpanMask) (ws : SpanWords) : List Word := (presentPositions m).map (fun k => ws[k])

/-- Place carried words at the present positions in increasing order; absent positions hold 0 (R114). -/
def placeWords : List Position → List Word → SpanWords → SpanWords
  | k :: ks, w :: ws, acc => placeWords ks ws (acc.set k w)
  | _, _, acc => acc

/-- Four words of 0. -/
def zeroWords : SpanWords := Vector.replicate 4 0

/-! ## Byte order: most significant byte first (section 11) -/

/-- Two bytes of a 16-bit value. -/
def bytes16 (v : BitVec 16) : List Byte := [v.extractLsb' 8 8, v.extractLsb' 0 8]
/-- Three bytes of a 24-bit value. -/
def bytes24 (v : BitVec 24) : List Byte := [v.extractLsb' 16 8, v.extractLsb' 8 8, v.extractLsb' 0 8]
/-- Four bytes of a 32-bit value. -/
def bytes32 (v : BitVec 32) : List Byte :=
  [v.extractLsb' 24 8, v.extractLsb' 16 8, v.extractLsb' 8 8, v.extractLsb' 0 8]
/-- A count or an index as one byte. -/
def byteOf (n : Nat) : Byte := BitVec.ofNat 8 n
/-- A bit at a place of a byte. -/
def bitAt (b : Bool) (i : Nat) : Byte := if b then 1#8 <<< i else 0#8

/-! ## The line code (R188) -/

/-- The code group of a symbol, first bit the most significant; an invalid symbol has none. -/
def codeGroup : Symbol → Option (BitVec 10)
  | .data v => some (0b10#2 ++ v)
  | .idle => some (0b01#2 ++ 0x3C#8)
  | .startFrame => some (0b01#2 ++ 0x0F#8)
  | .endFrame => some (0b01#2 ++ 0xF0#8)
  | .invalid => none

/-- Classify a received group (table of R188). -/
def classifyGroup (g : BitVec 10) : Symbol :=
  let v := g.extractLsb' 0 8
  if g.extractLsb' 8 2 = 0b10#2 then .data v
  else if g.extractLsb' 8 2 = 0b01#2 then
    if v = 0x3C#8 then .idle
    else if v = 0x0F#8 then .startFrame
    else if v = 0xF0#8 then .endFrame
    else .invalid
  else .invalid

/-- A group holds a transition between two of its bits (R58, R188). -/
def groupHasTransition (g : BitVec 10) : Bool := g != 0 && g != 0x3FF#10

/-! ## The check (R68) -/

/-- One bit into the check register: shift, and combine with 0x1021 when the bit shifted out differs from the data
bit. -/
def crcBit (r : BitVec 16) (b : Bool) : BitVec 16 :=
  if r.getLsbD 15 != b then (r <<< 1) ^^^ 0x1021#16 else r <<< 1

/-- One byte, most significant bit first. -/
def crcByte (r : BitVec 16) (v : Byte) : BitVec 16 :=
  crcBit (crcBit (crcBit (crcBit (crcBit (crcBit (crcBit (crcBit r (v.getLsbD 7)) (v.getLsbD 6)) (v.getLsbD 5))
    (v.getLsbD 4)) (v.getLsbD 3)) (v.getLsbD 2)) (v.getLsbD 1)) (v.getLsbD 0)

/-- The check of a run of bytes, from the initial value 0xFFFF. -/
def check (bs : List Byte) : BitVec 16 := bs.foldl crcByte 0xFFFF#16

/-! ## Frames on the wire (R187) -/

/-- A word as four bytes in lane order 0, 1, 2, 3. -/
def wordBytes (w : Word) : List Byte :=
  [w.extractLsb' 0 8, w.extractLsb' 8 8, w.extractLsb' 16 8, w.extractLsb' 24 8]

/-- Words from bytes in lane order. -/
def wordsFromBytes : List Byte → List Word
  | a :: b :: c :: d :: rest => (d ++ c ++ b ++ a) :: wordsFromBytes rest
  | _ => []

/-- A node ID as four bits. -/
def idBits (n : NodeId) : BitVec 4 := BitVec.ofNat 4 n.val

/-- Offset 2 of a frame: attempt, NAK, the spare bit sent as 0, hops. -/
def headerByte2 (f : Frame) : Byte := f.attempt ++ BitVec.ofBool f.nak ++ 0#1 ++ f.hops

/-- The bytes of a frame before its check. -/
def Frame.checkedBytes (f : Frame) : List Byte :=
  match f.body with
  | .announce => [2#4 ++ idBits f.source, f.seq, headerByte2 f]
  | .update channel span mask words =>
    [1#4 ++ idBits f.source, f.seq, headerByte2 f, channel] ++ bytes24 (span.setWidth 24) ++ bytes16 mask ++
      words.flatMap wordBytes

/-- The bytes of a frame on the wire, its check last, high byte first. -/
def Frame.bytes (f : Frame) : List Byte := f.checkedBytes ++ bytes16 (check f.checkedBytes)

/-- A transmission: one IDLE, START, the frame's bytes, END (R73). -/
def Frame.symbols (f : Frame) : List Symbol := [.idle, .startFrame] ++ f.bytes.map Symbol.data ++ [.endFrame]

/-- The node ID in the low four bits of offset 0. -/
def sourceOf (b0 : Byte) : NodeId := Fin.ofNat 16 (b0.extractLsb' 0 4).toNat

/-- The record of the bytes before the check, when kind and length are those of R69: the spare bit and the upper six
bits of the span-offset field are ignored. -/
def frameOfChecked (bs : List Byte) : Option Frame :=
  match bs with
  | b0 :: b1 :: b2 :: rest =>
    let frame (body : FrameBody) : Frame :=
      { source := sourceOf b0, seq := b1, attempt := b2.extractLsb' 6 2, nak := b2.getLsbD 5,
        hops := b2.extractLsb' 0 4, body := body }
    if b0.extractLsb' 4 4 = 2#4 then
      if rest = [] then some (frame .announce) else none
    else if b0.extractLsb' 4 4 = 1#4 then
      match rest with
      | ch :: s2 :: s1 :: s0 :: m1 :: m0 :: data =>
        let mask : SpanMask := m1 ++ m0
        if mask ≠ 0 ∧ data.length = 4 * presentCount mask then
          some (frame (.update ch ((s2 ++ s1 ++ s0).setWidth 18) mask (wordsFromBytes data)))
        else none
      | _ => none
    else none
  | _ => none

/-- A frame arrival read as a record when it is well-formed (R69), none when it is a bad frame. -/
def parseFrame (bs : List Byte) : Option Frame :=
  if bs.length < 5 then none
  else
    let body := bs.take (bs.length - 2)
    if bs.drop (bs.length - 2) = bytes16 (check body) then frameOfChecked body else none

end Sys2Proof.Machine
end

