-- ==== Sys2Proof/Machine/Flags.lean ====
section
/-! DEFINITION. Flags: the window flags DIVERGED and STALE and their requests (R21), the attention causes, their
pending and enable flags and ATTN (R161 to R164), the Incident Queue (R166), and the end of an event (R163). -/

namespace Sys2Proof.Machine

/-! ## Causes -/

/-- The number of a cause (table of section 9.1). -/
def Occurrence.cause : Occurrence → Nat
  | .joinDone _ => 1
  | .drainDone => 2
  | .levelChange => 3
  | .linkChange => 4
  | .deliveryFailed _ => 5
  | .publishOverrun _ _ _ => 6
  | .refusedWrite _ _ => 7
  | .ownerConflict _ _ _ => 8
  | .rangeError _ _ _ => 9
  | .sourceAdopted _ _ => 10
  | .staleMarked _ => 11
  | .divergedMarked _ => 12
  | .transitDrop _ _ => 13
  | .unmatchedReturn _ => 14

/-- The window field of an incident (R165). -/
def Occurrence.window : Occurrence → Option WinIdx
  | .publishOverrun w _ _ => some w
  | .refusedWrite w _ => some w
  | .ownerConflict w _ _ => some w
  | .rangeError w _ _ => some w
  | .staleMarked w => some w
  | .divergedMarked w => some w
  | _ => none

/-- The source field of an incident (R165). -/
def Occurrence.source : Occurrence → Option NodeId
  | .ownerConflict _ s _ => some s
  | .rangeError _ s _ => some s
  | .sourceAdopted s _ => some s
  | .transitDrop s _ => some s
  | _ => none

/-- The seq field of an incident (R165). -/
def Occurrence.seq : Occurrence → Option Byte
  | .joinDone q => some q
  | .deliveryFailed q => some q
  | .ownerConflict _ _ q => some q
  | .rangeError _ _ q => some q
  | .sourceAdopted _ q => some q
  | .transitDrop _ q => some q
  | .unmatchedReturn q => some q
  | _ => none

/-- The word address field of an incident (R165). -/
def Occurrence.word : Occurrence → Option WordAddr
  | .publishOverrun _ _ a => some a
  | .refusedWrite _ a => some a
  | _ => none

/-- The class field of an incident (R165). -/
def Occurrence.cls : Occurrence → Option PrioClass
  | .publishOverrun _ c _ => some c
  | _ => none

/-- Bit n-1 of the set of causes (R161). -/
def causeBit (o : Occurrence) : CauseSet := 1#14 <<< (o.cause - 1)

/-- The order of R163: by cause number, then by window index. -/
def Occurrence.rank (o : Occurrence) : Nat := 16 * o.cause + (o.window.map Fin.val).getD 0

/-- Insert behind every occurrence of the same or a lower rank. -/
def insertByRank (o : Occurrence) : List Occurrence → List Occurrence
  | [] => [o]
  | p :: ps => if o.rank < p.rank then o :: p :: ps else p :: insertByRank o ps

/-- The occurrences of one event in the order of R163. -/
def inRankOrder (os : List Occurrence) : List Occurrence := os.foldl (fun acc o => insertByRank o acc) []

/-! ## The end of an event -/

/-- Set a pending flag and append an incident; a record that finds the queue full is dropped, sets the overflow flag
and, while a removal is pending, the drop flag (R162, R166, R173). -/
def appendIncident (s : State) (o : Occurrence) : State :=
  let a := s.attn
  if a.queue.length < Config.incidentCapacity then
    s.withAttn { a with raisedSet := a.raisedSet ||| causeBit o
                        queue := a.queue ++ [{ what := o, time := s.node.timebase }] }
  else
    let t := s.mgmt.txn
    (s.withAttn { a with raisedSet := a.raisedSet ||| causeBit o, overflow := true }).withMgmt
      { s.mgmt with txn := { t with dropFlag := t.dropFlag || t.removal.isSome } }

/-- The causes of an event reach the Attention Unit together at its end; while RESET_N is low no cause is raised
(R162, R163). -/
def Event.commit (e : Event) : State :=
  if e.resetN then (inRankOrder e.raised).foldl appendIncident e.toState else e.toState

/-- ATTN is driven low exactly while a cause is both pending and enabled (R164). -/
def State.attnLow (s : State) : Bool := s.attn.raisedSet &&& s.attn.enableSet != 0

/-! ## Window flags (R21) -/

/-- Replace one window record. -/
def Event.setWindow (e : Event) (i : WinIdx) (w : Window) : Event :=
  e.on fun s => s.withWindows (s.windows.set i w)

/-- A DIVERGED request on window i (R21). -/
def Event.requestDiverged (e : Event) (i : WinIdx) : Event :=
  let w := e.windows[i]
  if w.kind = .owned ∧ w.diverged = false then
    (e.setWindow i { w with diverged := true }).raise (.divergedMarked i)
  else e

/-- A STALE request on window i (R21). -/
def Event.requestStale (e : Event) (i : WinIdx) : Event :=
  let w := e.windows[i]
  if w.kind = .mirror ∧ w.stale = false then
    (e.setWindow i { w with stale := true }).raise (.staleMarked i)
  else e

/-- DIVERGED requests on several windows, one after another. -/
def Event.requestDivergedAll (e : Event) (is : List WinIdx) : Event := is.foldl Event.requestDiverged e

/-- STALE requests on several windows, one after another. -/
def Event.requestStaleAll (e : Event) (is : List WinIdx) : Event := is.foldl Event.requestStale e

/-- One update-count advance on a window's record as it stands (R22). -/
def Event.advanceUpdates (e : Event) (i : WinIdx) : Event :=
  e.setWindow i { e.windows[i] with updates := e.windows[i].updates + 1 }

end Sys2Proof.Machine
end

