-- ==== Sys2Proof/Machine/Apply.lean ====
section
/-! DEFINITION. The Apply Queue and the Memory Arbiter's choice: entries and what they cover (R124 to R127), the apply
request (R128), voiding (R131), grants (R132, R133) and the release of a read hold (R135). -/

namespace Sys2Proof.Machine

/-! ## Coverage and marks (R126) -/

/-- The word lies in the entry's span and the entry's mask has a byte of it. -/
def AqEntry.covers (a : AqEntry) (w : WordAddr) : Bool :=
  a.base.toNat ≤ w.toNat && w.toNat - a.base.toNat < 4 && present a.mask (Fin.ofNat 4 (w.toNat - a.base.toNat))

/-- At or before a mark: (m - a) modulo 65,536 is less than 32,768. -/
def atOrBefore (a m : AccNo) : Bool := (m - a).toNat < 32768

/-- The youngest present entry that covers a word (R8, R127). -/
def youngestCovering (entries : List AqEntry) (w : WordAddr) : Option AqEntry :=
  (entries.filter fun a => a.covers w).getLast?

/-! ## Requests (R13, R128) -/

/-- The host request: it exists while the Host Path is in REQUESTING (R13). -/
def hostRequest (s : State) : Option MemCycle :=
  if s.host.path = .requesting then
    s.host.cycle.map fun c =>
      { grant := .host, word := c.word, dir := c.dir, lanes := c.lanes, data := c.data.getD 0 }
  else none

/-- The word cycle an entry asks for: its next position, the enabled lanes of its mask, its data word (R128). -/
def AqEntry.wordCycle (a : AqEntry) : MemCycle :=
  { grant := .apply, word := a.base + BitVec.ofNat 22 a.next.val, dir := .write, lanes := maskLanes a.mask a.next,
    data := a.words[a.next] }

/-- The apply request: it exists while the Apply Queue holds an entry and names the head (R128). -/
def applyRequest (s : State) : Option MemCycle := s.aq.entries.head?.map AqEntry.wordCycle

/-! ## The choice (R133) -/

/-- Which request a choice grants, by the rows of R133 in order. -/
def arbiterChoice (s : State) : Option MemCycle :=
  match hostRequest s, applyRequest s with
  | host, some a =>
    if s.host.hold = .readHold then some a
    else
      match host with
      | some h => if s.arb.lastGrant = .apply then some h else some a
      | none => some a
  | some h, none => some h
  | none, none => none

/-- The head becomes WRITING at its first grant (R129). -/
def markHeadWriting : List AqEntry → List AqEntry
  | [] => []
  | a :: rest => { a with state := .writing } :: rest

/-- Grant a request: the port is BUSY with its cycle; a host grant takes the Host Path to MEMORY, an apply grant makes
the head WRITING (R132, R129). -/
def grantCycle (c : MemCycle) (s : State) : State :=
  let s := s.withArb { cycle := some c, lastGrant := c.grant }
  match c.grant with
  | .host => s.withHost { s.host with path := .memory }
  | .apply => s.withAq { s.aq with entries := markHeadWriting s.aq.entries }

/-- The Memory Arbiter chooses while the port is FREE (R133); a choice that finds no request changes nothing. -/
def arbitrate (s : State) : State :=
  match s.arb.cycle with
  | some _ => s
  | none =>
    match arbiterChoice s with
    | some c => grantCycle c s
    | none => s

/-! ## Release of a read hold (R135) -/

/-- The check made at each removal of an entry: a read in READ_HOLD with no entry at or before its mark present enters
REQUESTING. -/
def releaseReadHold (s : State) : State :=
  if s.host.hold = .readHold ∧ s.aq.entries.all (fun a => !atOrBefore a.acc s.host.holdMark) then
    s.withHost { s.host with path := .requesting, hold := .noHold }
  else s

/-! ## Removal (R129, R130, R131) -/

/-- Void the WAITING entries that `which` names, then check a held read for release (R131). -/
def voidWaiting (which : AqEntry → Bool) (s : State) : State :=
  releaseReadHold
    (s.withAq { s.aq with entries := s.aq.entries.filter fun a => !(a.state = .waiting && which a) })

/-- The completion of a word cycle of the head (R129, R130). A completion that finds no entry in WRITING belongs to an
entry that a hard reset removed; it advances nothing (R140). -/
def Event.applyWordDone (e : Event) : Event :=
  match e.aq.entries with
  | a :: rest =>
    if a.state = .writing then
      match nextPresent a.mask a.next with
      | some k => e.on fun s => s.withAq { s.aq with entries := { a with next := k } :: rest }
      | none =>
        ((e.on fun s => s.withAq { s.aq with entries := rest }).advanceUpdates a.window).on releaseReadHold
    else e
  | [] => e

/-- Create an entry at the tail with the next acceptance number (R114, R125). -/
def createApplyEntry (base : WordAddr) (mask : SpanMask) (words : List Word) (window : WinIdx) (s : State) : State :=
  let entry : AqEntry :=
    { acc := s.aq.nextAcc, base := base, mask := mask,
      words := placeWords (presentPositions mask) words zeroWords, window := window, state := .waiting,
      next := lowestPresent mask }
  s.withAq { entries := s.aq.entries ++ [entry], nextAcc := s.aq.nextAcc + 1 }

/-- The Apply Queue holds fewer than 24 entries (R127). -/
def applyRoom (s : State) : Bool := s.aq.entries.length < Config.aqCapacity

end Sys2Proof.Machine
end

