-- ==== Sys2Proof/Machine/Publish.lean ====
section
/-! DEFINITION. The Publish Queue: class lists and the reservation (R37, R38, R41), capture (R39, R40), the ways a
publish hold ends (R44 to R49), the offer and departure (R50, R51), FLUSH's removal and discard (R53, R54). -/

namespace Sys2Proof.Machine

/-! ## Class lists (R38) -/

/-- The class list c. -/
def PublishQueue.classList (q : PublishQueue) (c : PrioClass) : List PqEntry :=
  match c with
  | 0 => q.class0
  | 1 => q.class1
  | 2 => q.class2
  | 3 => q.class3

/-- Replace the class list c. -/
def PublishQueue.setClassList (q : PublishQueue) (c : PrioClass) (l : List PqEntry) : PublishQueue :=
  match c with
  | 0 => { q with class0 := l }
  | 1 => { q with class1 := l }
  | 2 => { q with class2 := l }
  | 3 => { q with class3 := l }

/-- The low count: entries in classes 0, 1 and 2 (R38). -/
def PublishQueue.low (q : PublishQueue) : Nat := q.class0.length + q.class1.length + q.class2.length

/-- The total (R38). -/
def PublishQueue.total (q : PublishQueue) : Nat := q.low + q.class3.length

/-- All entries, in the order of their classes. -/
def PublishQueue.entries (q : PublishQueue) : List PqEntry := q.class0 ++ q.class1 ++ q.class2 ++ q.class3

/-- The reservation check of R41 for a class. -/
def PublishQueue.hasRoom (q : PublishQueue) (c : PrioClass) : Bool :=
  q.total < Config.pqCapacity && (c == 3 || q.low < Config.pqLowCapacity)

/-! ## Capture (R39 to R42) -/

/-- The conditions of R40 on a tail. -/
def CaptureRequest.combinesWith (r : CaptureRequest) (t : PqEntry) : Bool :=
  r.combine && t.window == r.window && t.channel == r.channel && t.span == r.span

/-- The tail with the write's bytes merged in (R40). -/
def CaptureRequest.mergeInto (r : CaptureRequest) (t : PqEntry) : PqEntry :=
  { t with words := t.words.set r.pos (mergeLanes t.words[r.pos] r.data r.lanes)
           mask := t.mask ||| spanLanes r.pos r.lanes }

/-- The entry a capture creates (R41). -/
def CaptureRequest.newEntry (r : CaptureRequest) : PqEntry :=
  { channel := r.channel, span := r.span, words := zeroWords.set r.pos (mergeLanes 0 r.data r.lanes),
    mask := spanLanes r.pos r.lanes, cls := r.cls, window := r.window }

/-- Append a new entry to its class list and count the capture (R41, R42). -/
def Event.createEntry (e : Event) (r : CaptureRequest) : Event :=
  (e.on fun s => s.withPq (s.pq.setClassList r.cls (s.pq.classList r.cls ++ [r.newEntry]))).advanceUpdates r.window

/-- Merge a write into the tail of its class list and count the capture (R40, R42). -/
def Event.combineTail (e : Event) (r : CaptureRequest) (t : PqEntry) : Event :=
  (e.on fun s =>
    s.withPq (s.pq.setClassList r.cls ((s.pq.classList r.cls).dropLast ++ [r.mergeInto t]))).advanceUpdates r.window

/-- Decide a capture request: combining, then creation, then no room (R39). -/
def Event.capture (e : Event) (r : CaptureRequest) : Option Event :=
  match (e.pq.classList r.cls).getLast? with
  | some t =>
    if r.combinesWith t then some (e.combineTail r t)
    else if e.pq.hasRoom r.cls then some (e.createEntry r) else none
  | none => if e.pq.hasRoom r.cls then some (e.createEntry r) else none

/-! ## The publish hold (R44 to R49) -/

/-- A held write enters REQUESTING and its held request is discarded. -/
def endPublishHold (cls : HostClass) (window : Option WinIdx) (s : State) : State :=
  (s.withHost { s.host with path := .requesting, hold := .noHold
                            cycle := s.host.cycle.map fun c => { c with cls := cls, window := window } }).withPq
    { s.pq with held := none }

/-- The window a held write was classified with. -/
def heldWindow (s : State) : Option WinIdx := s.host.cycle.bind CycleRecord.window

/-- Demotion to UNPUBLISHED with its DIVERGED request; nothing when no write is in PUBLISH_HOLD (R6, R10). -/
def Event.demoteUnpublished (e : Event) : Event :=
  if e.host.hold = .publishHold then
    let w := heldWindow e.toState
    let e := e.on (endPublishHold .unpublished w)
    match w with
    | some i => e.requestDiverged i
    | none => e
  else e

/-- Demotion to PLAIN, keeping no window index and making no request (R6, R49). -/
def demotePlain (s : State) : State :=
  if s.host.hold = .publishHold then endPublishHold .plain none s else s

/-- Room is looked for after a removal by departure or FLUSH: a held request that finds room is captured as a new entry
(R45). -/
def Event.roomCheck (e : Event) : Event :=
  match e.pq.held with
  | some r =>
    if e.host.hold = .publishHold ∧ e.pq.hasRoom r.cls then
      (e.on fun s => endPublishHold .publish (heldWindow s) s).createEntry r
    else e
  | none => e

/-! ## The offer and departure (R50, R51) -/

/-- The head of the highest-numbered class list that is not empty (R50). -/
def PublishQueue.offer (q : PublishQueue) : Option PqEntry :=
  match q.class3, q.class2, q.class1, q.class0 with
  | p :: _, _, _, _ => some p
  | [], p :: _, _, _ => some p
  | [], [], p :: _, _ => some p
  | [], [], [], p :: _ => some p
  | [], [], [], [] => none

/-- Remove the offered entry from the head of its class list (R51). -/
def PublishQueue.dropOffer (q : PublishQueue) : PublishQueue :=
  match q.class3, q.class2, q.class1, q.class0 with
  | _ :: t, _, _, _ => { q with class3 := t }
  | [], _ :: t, _, _ => { q with class2 := t }
  | [], [], _ :: t, _ => { q with class1 := t }
  | [], [], [], _ :: t => { q with class0 := t }
  | [], [], [], [] => q

/-! ## Discard (R54) -/

/-- Remove every entry, each making its DIVERGED request (R54). -/
def Event.discardPq (e : Event) : Event :=
  (e.on fun s => s.withPq { s.pq with class0 := [], class1 := [], class2 := [], class3 := [] }).requestDivergedAll
    (e.pq.entries.map PqEntry.window)

end Sys2Proof.Machine
end

