-- ==== Sys2Proof/Machine/HostPath.lean ====
section
/-! DEFINITION. The Host Path: classification (R4, R5), acceptance and the path each class takes (R2, R7 to R12),
completion (R14), and its output pins. -/

namespace Sys2Proof.Machine

/-! ## The Window Table's address match (R4, R19) -/

/-- The sixteen indices in increasing order. -/
def allWindows : List WinIdx := [0, 1, 2, 3, 4, 5, 6, 7, 8, 9, 10, 11, 12, 13, 14, 15]

/-- Number of words of a window (R18). -/
def Window.size (w : Window) : Nat := 2 ^ w.sizeCode.toNat

/-- The word lies in the window's range (R4, R19). -/
def Window.contains (w : Window) (a : WordAddr) : Bool :=
  w.base.toNat ≤ a.toNat && a.toNat < w.base.toNat + w.size

/-- The lowest-index enabled window whose range contains the word (R4). -/
def matchingWindow (ws : Vector Window 16) (a : WordAddr) : Option WinIdx :=
  allWindows.find? fun i => ws[i].enabled && ws[i].contains a

/-! ## Classification (R5) -/

/-- The word address of a presented cycle: address bits 1..0 dropped (R3). -/
def HostCycle.word (c : HostCycle) : WordAddr := c.addr.extractLsb' 2 22

/-- JOINING or ACTIVE: the modes in which writes into an OWNED window are captured (R5). -/
def Mode.captures : Mode → Bool
  | .joining => true
  | .active => true
  | .offline => false
  | .draining => false

/-- The class and window index of a cycle, by the rows of R5 in order. -/
def classify (s : State) (c : HostCycle) : HostClass × Option WinIdx :=
  if c.dir = .read then (.plain, none)
  else if c.lanes = 0 then (.plain, none)
  else
    match matchingWindow s.windows c.word with
    | none => (.plain, none)
    | some i =>
      match s.windows[i].kind, s.windows[i].policy with
      | .owned, _ => if s.node.mode.captures then (.publish, some i) else (.unpublished, some i)
      | .mirror, .accept => (.localWrite, some i)
      | .mirror, .refuse => (.refused, some i)

/-! ## Acceptance (R2, R7 to R12) -/

/-- The record of an accepted cycle (R1, R2). -/
def HostCycle.record (c : HostCycle) (cls : HostClass) (window : Option WinIdx) : CycleRecord :=
  { word := c.word, dir := c.dir, lanes := c.lanes, data := if c.dir = .write then some c.data else none,
    cls := cls, window := window }

/-- The capture request of a PUBLISH write (R9). -/
def captureRequest (s : State) (c : HostCycle) (i : WinIdx) : CaptureRequest :=
  let w := s.windows[i]
  { channel := w.channel, cls := w.cls, combine := w.combine, window := i
    span := BitVec.ofNat 18 ((c.word.toNat - w.base.toNat) / 4), pos := Fin.ofNat 4 c.word.toNat
    lanes := c.lanes, data := c.data }

/-- A cycle without a hold posts its memory request (R13). -/
def enterRequesting (r : CycleRecord) (s : State) : State :=
  s.withHost { s.host with path := .requesting, cycle := some r, hold := .noHold, herr := false }

/-- A PLAIN cycle: a write requests at once; a read takes the read-hold check (R7, R8). -/
def acceptPlain (c : HostCycle) (s : State) : State :=
  let r := c.record .plain none
  if c.dir = .read then
    match youngestCovering s.aq.entries c.word with
    | some a =>
      s.withHost { s.host with path := .holding, cycle := some r, hold := .readHold, holdMark := a.acc
                               holdStart := s.node.timebase, herr := false }
    | none => enterRequesting r s
  else enterRequesting r s

/-- The expiry of a publish hold: demotion to UNPUBLISHED and PUBLISH_OVERRUN (R46). -/
def Event.expirePublishHold (e : Event) : Event :=
  match e.host.cycle, e.pq.held with
  | some c, some r => (e.raise (.publishOverrun r.window r.cls c.word)).demoteUnpublished
  | _, _ => e

/-- The publish hold has run out (R46). -/
def publishHoldDue (s : State) : Bool :=
  s.host.hold = .publishHold && elapsed s.node.timebase s.host.holdStart s.node.params.phl.toNat

/-- A PUBLISH write: capture, else PUBLISH_HOLD, whose expiry is taken at once when PHL is 0 (R9, R39, R46). -/
def Event.acceptPublish (e : Event) (c : HostCycle) (i : WinIdx) : Event :=
  let r := captureRequest e.toState c i
  match e.capture r with
  | some e' => e'.on (enterRequesting (c.record .publish (some i)))
  | none =>
    let e := e.on fun s =>
      (s.withHost { s.host with path := .holding, cycle := some (c.record .publish (some i)), hold := .publishHold
                                holdStart := s.node.timebase, herr := false }).withPq { s.pq with held := some r }
    if publishHoldDue e.toState then e.expirePublishHold else e

/-- A REFUSED write completes at its acceptance; the signalling of the completion follows one clock later
(R12, R14). -/
def Event.acceptRefused (e : Event) (c : HostCycle) (i : WinIdx) : Event :=
  (e.on fun s => s.withHost { s.host with path := .free, cycle := none, hold := .noHold, refusedDelay := true
                                          herr := false }).raise
    (.refusedWrite i c.word)

/-- An accepted cycle is new no more: the host must raise HSTB_N before it presents the next one (R2; assumption 6). -/
def markAccepted (s : State) : State := s.withHost { s.host with strobeHighSince := false }

/-- Accept a cycle: classify it and enter the path its class requires (R2, table of section 1.4). -/
def Event.accept (e : Event) (c : HostCycle) : Event :=
  let e := e.on markAccepted
  match classify e.toState c with
  | (.publish, some i) => e.acceptPublish c i
  | (.unpublished, some i) => (e.on (enterRequesting (c.record .unpublished (some i)))).requestDiverged i
  | (.localWrite, some i) => (e.on (enterRequesting (c.record .localWrite (some i)))).requestStale i
  | (.refused, some i) => e.acceptRefused c i
  | _ => e.on (acceptPlain c)

/-- A new cycle the host presents is accepted when the path is FREE, RESET_N is high and no refused completion waits to
be signalled (R2, R14; assumption 6). -/
def canAccept (s : State) : Bool :=
  s.resetN && s.host.path = .free && !s.host.refusedDelay && s.host.strobeHighSince

/-- Accept the cycle the host presents, if R2 allows it now. -/
def Event.acceptPresented (e : Event) : Event :=
  match e.host.presented with
  | some c => if canAccept e.toState then e.accept c else e
  | none => e

/-! ## Completion (R14) -/

/-- The host still holds HSTB_N low for the cycle that was accepted. -/
def strobeHeld (h : HostPath) : Bool := h.presented.isSome && !h.strobeHighSince

/-- The completion of the cycle in MEMORY: the path is FREE, HRDY is signalled without HERR and a read's data is returned;
HD goes on carrying it while the host still holds the cycle's HSTB_N low, and is not driven otherwise (R14, R193, 11.3). -/
def completeHostCycle (data : Option Word) (s : State) : State :=
  s.withHost { s.host with path := .free, cycle := none, hold := .noHold, herr := false
                           hd := if strobeHeld s.host then data else none
                           returned := match data with | some d => some d | none => s.host.returned
                           completions := s.host.completions + 1 }

/-! ## Output pins of the host side (section 11.3) -/

/-- HRDY: high while the Host Path is FREE, RESET_N is high and no refused completion waits (R14, R193). -/
def State.hrdy (s : State) : Bool := s.resetN && s.host.path = .free && !s.host.refusedDelay

/-- HERR (R14). -/
def State.herr (s : State) : Bool := s.host.herr

/-! ## The commands -/

/-- HOST_CYCLE_ACCEPTANCE (R2): HSTB_N falls with the cycle; it is accepted if R2 allows it now, and otherwise stays
presented. -/
def presentCycle (c : HostCycle) (s : State) : State := s.withHost { s.host with presented := some c }

/-- REFUSED_WRITE_COMPLETION (R14): HRDY is asserted together with HERR; a new cycle the host presents is then
accepted. -/
def signalRefused (s : State) : State :=
  s.withHost { s.host with refusedDelay := false, herr := true, completions := s.host.completions + 1 }

/-- HSTB_N_RELEASE (R2): HSTB_N is high; the part's drive of read data ends (11.3). -/
def releaseStrobe (s : State) : State :=
  s.withHost { s.host with presented := none, strobeHighSince := true, hd := none }

end Sys2Proof.Machine
end

