-- ==== Sys2Proof/Machine/Node.lean ====
section
/-! DEFINITION. Node Control: the mode machine (R143 to R148), fault reports and their weights (R149 to R151), level
evaluation (R152), isolation (R154) and the end of a drain (R146); with the discard of the In-Flight List (R99). -/

namespace Sys2Proof.Machine

/-- Set the mode (R143). -/
def setMode (m : Mode) (s : State) : State := s.withNode { s.node with mode := m }

/-- Set the level (R152, R154). -/
def setLevel (l : Level) (s : State) : State := s.withNode { s.node with level := l }

/-! ## Discarding what is in flight (R93, R99, R100) -/

/-- The In-Flight List emptied with its resend pointer and backoff timer. -/
def clearFlight (s : State) : State :=
  s.withOrig { s.orig with flight := [], resend := none, backoff := none }

/-- Discard every In-Flight List entry with one DIVERGED request on the origin window of each (R93, R99). -/
def Event.discardFlight (e : Event) : Event :=
  (e.on clearFlight).requestDivergedAll (e.orig.flight.map IflEntry.window)

/-- Abandon the announce record (R95). -/
def abandonAnnounce (s : State) : State := s.withOrig { s.orig with announce := none }

/-! ## Isolation and levels (R152, R154) -/

/-- Isolation (R154): the level and LEVEL_CHANGE, the mode OFFLINE, the Publish Queue discarded, a held write demoted,
the In-Flight List discarded and the announce record abandoned. -/
def Event.isolate (e : Event) : Event :=
  ((((e.on (setLevel .isolated)).raise .levelChange).on (setMode .offline)).discardPq.demoteUnpublished.discardFlight).on
    abandonAnnounce

/-- Evaluate the level by the rows of R152. -/
def Event.evaluateLevel (e : Event) : Event :=
  let n := e.node
  if n.level ≠ .isolated ∧ (Config.isolateAt ≤ n.lif.toNat ∨ Config.isolateAt ≤ n.rtf.toNat) then e.isolate
  else if n.level = .normal ∧ (Config.degradeAt ≤ n.lif.toNat ∨ Config.degradeAt ≤ n.rtf.toNat) then
    (e.on (setLevel .degraded)).raise .levelChange
  else if n.level = .degraded ∧ n.lif.toNat ≤ Config.restoreAt ∧ n.rtf.toNat ≤ Config.restoreAt then
    (e.on (setLevel .normal)).raise .levelChange
  else e

/-! ## Reports (R149 to R151) -/

/-- A report to one of the fault counters. -/
inductive Report where
  | badFrame
  | cutOff
  | transitDrop
  | goodFrame
  | timerExpiry
  | outOfOrder
  | objected
  | cleanRetirement
  deriving DecidableEq, Repr

/-- The change of the counters by a counted report (tables of R149 and R150). -/
def Report.apply (r : Report) (n : NodeControl) : NodeControl :=
  match r with
  | .badFrame => { n with lif := satAdd n.lif Config.badFrameWeight }
  | .cutOff => { n with lif := satAdd n.lif Config.badFrameWeight }
  | .transitDrop => { n with lif := satAdd n.lif Config.transitDropWeight }
  | .goodFrame => { n with lif := satPred n.lif }
  | .timerExpiry => { n with rtf := satAdd n.rtf Config.lostReturnWeight }
  | .outOfOrder => { n with rtf := satAdd n.rtf Config.lostReturnWeight }
  | .objected => { n with rtf := satAdd n.rtf Config.objectionWeight }
  | .cleanRetirement => { n with rtf := satPred n.rtf }

/-- Take a report under the mode given: counted in JOINING, ACTIVE and DRAINING and followed by level evaluation,
discarded in OFFLINE (R151). -/
def Event.reportUnder (e : Event) (mode : Mode) (r : Report) : Event :=
  if mode = .offline then e
  else (e.on fun s => s.withNode (r.apply s.node)).evaluateLevel

/-- Take a report under the mode as it stands. -/
def Event.report (e : Event) (r : Report) : Event := e.reportUnder e.node.mode r

/-! ## The end of a drain (R146) -/

/-- In DRAINING with the Publish Queue and the In-Flight List both empty, the mode becomes OFFLINE and DRAIN_DONE is
raised (R146). -/
def Event.drainCheck (e : Event) : Event :=
  if e.node.mode = .draining ∧ e.pq.total = 0 ∧ e.orig.flight = [] then
    (e.on (setMode .offline)).raise .drainDone
  else e

end Sys2Proof.Machine
end

