-- ==== Sys2Proof/Machine/Origination.lean ====
section
/-! DEFINITION. The Origination Unit: offers and their commitment (R81 to R84), returns (R85 to R89, R97), timers
(R90, R92, R96), go-back and give-up (R91 to R94). -/

namespace Sys2Proof.Machine

/-! ## The origination offer (R82) -/

/-- What the Origination Unit offers to the Output Arbiter. -/
inductive Offer where
  | announce (r : AnnounceRecord)
  | resend (f : IflEntry)
  | fresh (p : PqEntry)
  deriving DecidableEq, Repr

/-- The modes in which a new entry may be offered (R82). -/
def Mode.sends : Mode → Bool
  | .active => true
  | .draining => true
  | .offline => false
  | .joining => false

/-- The entry that carries a sequence number (R85): its position is the sequence minus the head's, modulo 256. -/
def flightPosition (flight : List IflEntry) (q : Byte) : Option Nat :=
  match flight with
  | [] => none
  | h :: _ => if (q - h.seq).toNat < flight.length then some (q - h.seq).toNat else none

/-- The offer of the announce record (R82, 1). -/
def announceOffer (s : State) : Option AnnounceRecord :=
  match s.orig.announce with
  | some r => if s.node.mode = .joining ∧ r.state = .awaitingSend then some r else none
  | none => none

/-- The entry the resend pointer names. -/
def resendEntry (o : Origination) : Option IflEntry :=
  o.resend.bind fun q => (flightPosition o.flight q).bind fun i => o.flight[i]?

/-- The origination offer: the first of the three of R82 that exists. -/
def originationOffer (s : State) : Option Offer :=
  match announceOffer s with
  | some r => some (.announce r)
  | none =>
    if s.orig.resend.isSome then
      if s.orig.backoff.isNone then (resendEntry s.orig).map Offer.resend else none
    else if s.node.mode.sends ∧ s.orig.flight.length < Config.iflCapacity then s.pq.offer.map Offer.fresh
    else none

/-! ## Commitment (R81, R83, R84) -/

/-- The UPDATE built from an In-Flight List entry (R84). -/
def IflEntry.frame (f : IflEntry) (self : NodeId) : Frame :=
  { source := self, seq := f.seq, attempt := f.retry.extractLsb' 0 2, nak := false, hops := 0
    body := .update f.channel f.span f.mask (presentWords f.mask f.words) }

/-- The ANNOUNCE built from the announce record (R84). -/
def AnnounceRecord.frame (r : AnnounceRecord) (self : NodeId) : Frame :=
  { source := self, seq := r.startSeq, attempt := r.retry.extractLsb' 0 2, nak := false, hops := 0, body := .announce }

/-- The In-Flight List entry of a departing Publish Queue entry (R51, R81). -/
def PqEntry.depart (p : PqEntry) (seq : Byte) (now : Time) : IflEntry :=
  { seq := seq, retry := 0, state := .sent, departure := now, channel := p.channel, span := p.span, mask := p.mask
    words := p.words, window := p.window }

/-- Departure: the offered entry leaves the Publish Queue for the tail of the In-Flight List with sequence next_seq,
next_seq rises by one, and a held request is checked for room (R51, R81, R45). -/
def Event.departEntry (e : Event) (p : PqEntry) : Event :=
  (e.on fun s =>
    (s.withPq s.pq.dropOffer).withOrig
      { s.orig with flight := s.orig.flight ++ [p.depart s.orig.nextSeq s.node.timebase]
                    nextSeq := s.orig.nextSeq + 1 }).roomCheck

/-- The resend of the entry at the pointer: SENT with a new departure time; the pointer moves to the next entry or
becomes absent (R83). -/
def resendAt (i : Nat) (f : IflEntry) (s : State) : State :=
  s.withOrig { s.orig with flight := s.orig.flight.set i { f with state := .sent, departure := s.node.timebase }
                           resend := (s.orig.flight[i + 1]?).map IflEntry.seq }

/-- Commit the offer; the frame it sends is fixed at this moment (R75, R83). -/
def Event.commitOffer (e : Event) (o : Offer) : Event × Frame :=
  match o with
  | .announce r =>
    (e.on fun s => s.withOrig { s.orig with announce := some { r with state := .sent, departure := s.node.timebase } },
      r.frame e.node.nodeId)
  | .resend f =>
    (match flightPosition e.orig.flight f.seq with
      | some i => e.on (resendAt i f)
      | none => e,
      f.frame e.node.nodeId)
  | .fresh p => (e.departEntry p, (p.depart e.orig.nextSeq e.node.timebase).frame e.node.nodeId)

/-! ## Go-back and give-up (R91 to R94) -/

/-- Every entry one go-back further and awaiting its resend (R91). -/
def IflEntry.goBack (f : IflEntry) : IflEntry := { f with retry := f.retry + 1, state := .awaitingResend }

/-- The go-back proper (R91, R92): a backoff starts after an objection, and expires at once when NAK_BACKOFF is 0. -/
def goBackFlight (objection : Bool) (s : State) : State :=
  s.withOrig { s.orig with flight := s.orig.flight.map IflEntry.goBack
                           resend := s.orig.flight.head?.map IflEntry.seq
                           backoff := if objection && s.node.params.nakBackoff != 0 then some s.node.timebase
                                      else none }

/-- A new announce record with start sequence next_seq (R94, R95); its departure time is not read before it is sent
(assumption 7). -/
def createAnnounce (s : State) : State :=
  s.withOrig { s.orig with announce := some { startSeq := s.orig.nextSeq, retry := 0, state := .awaitingSend
                                              departure := 0 } }

/-- A give-up of the list whose head carries sequence q (R93), with the mode change of R94. -/
def Event.giveUp (e : Event) (q : Byte) : Event :=
  let e := (e.raise (.deliveryFailed q)).discardFlight
  match e.node.mode with
  | .active => e.on fun s => createAnnounce (setMode .joining s)
  | .draining => (e.discardPq.on (setMode .offline)).raise .drainDone
  | .joining => e
  | .offline => e

/-- A go-back, or a give-up when the head's retry count equals RETRY_LIMIT (R91). -/
def Event.goBack (e : Event) (objection : Bool) : Event :=
  match e.orig.flight with
  | h :: _ => if h.retry = e.node.params.retryLimit then e.giveUp h.seq else e.on (goBackFlight objection)
  | [] => e

/-- A go-back followed by its RTF report, taken under the mode held before it (R151, R152). -/
def Event.goBackReported (e : Event) (objection : Bool) (r : Report) : Event :=
  (e.goBack objection).reportUnder e.node.mode r

/-! ## Returns (R85 to R89, R97) -/

/-- A stale return only adds to the stale return count (R86, R97). -/
def countStale (s : State) : State := s.withOrig { s.orig with staleReturns := satSucc16 s.orig.staleReturns }

/-- A clean return retires the head, lowers RTF, and may end a drain (R87, R146). -/
def Event.retire (e : Event) : Event :=
  ((e.on fun s => s.withOrig { s.orig with flight := s.orig.flight.tail }).report .cleanRetirement).drainCheck

/-- A returned UPDATE, sorted by the table of section 5.3. -/
def Event.updateReturned (e : Event) (f : Frame) : Event :=
  match (flightPosition e.orig.flight f.seq).bind fun i => (e.orig.flight[i]?).map fun x => (i, x) with
  | none => e.raise (.unmatchedReturn f.seq)
  | some (i, x) =>
    if f.attempt ≠ x.retry.extractLsb' 0 2 ∨ x.state = .awaitingResend then e.on countStale
    else if f.nak then e.goBackReported true .objected
    else if i = 0 then e.retire
    else e.goBackReported false .outOfOrder

/-- The return completes the join (R97). -/
def AnnounceRecord.completedBy (r : AnnounceRecord) (f : Frame) : Bool :=
  r.state = .sent && f.seq == r.startSeq && f.attempt == r.retry.extractLsb' 0 2

/-- Join completion takes JOINING to ACTIVE (R97, R148). -/
def joinMode : Mode → Mode
  | .joining => .active
  | m => m

/-- A returned ANNOUNCE (R97). -/
def Event.announceReturned (e : Event) (f : Frame) : Event :=
  match e.orig.announce with
  | some r =>
    if r.completedBy f then
      (e.on fun s => setMode (joinMode s.node.mode) (abandonAnnounce s)).raise (.joinDone r.startSeq)
    else e.on countStale
  | none => e.on countStale

/-- A stripped frame is handed over as one return (R104). -/
def Event.returned (e : Event) (f : Frame) : Event :=
  match f.body with
  | .update _ _ _ _ => e.updateReturned f
  | .announce => e.announceReturned f

/-! ## Timers (R90, R92, R96) -/

/-- The return timer of the head has expired (R90). -/
def returnTimerDue (s : State) : Bool :=
  match s.orig.flight with
  | h :: _ => h.state = .sent && elapsed s.node.timebase h.departure s.node.params.rto.toNat
  | [] => false

/-- The announce timer has expired (R96). -/
def announceTimerDue (s : State) : Bool :=
  match s.orig.announce with
  | some r => r.state = .sent && elapsed s.node.timebase r.departure s.node.params.rto.toNat
  | none => false

/-- The backoff has run out (R92). -/
def backoffDue (s : State) : Bool :=
  match s.orig.backoff with
  | some t => elapsed s.node.timebase t s.node.params.nakBackoff.toNat
  | none => false

/-- The announce record offered again with the next attempt (R96). -/
def retryAnnounce (s : State) : State :=
  s.withOrig { s.orig with announce := s.orig.announce.map fun r => { r with retry := r.retry + 1
                                                                             state := .awaitingSend } }

end Sys2Proof.Machine
end

