-- ==== Sys2Proof/Machine/Output.lean ====
section
/-! DEFINITION. The Output Arbiter (R73 to R75), the end of an event, and the commands whose event is a completion or
a timer of the Origination Unit. -/

namespace Sys2Proof.Machine

/-! ## The choice (R73, R74) -/

/-- Start the transmission of a frame with a starvation count (R73, R74). -/
def startSending (f : Frame) (starvation : Nat) (s : State) : State :=
  s.withOut { s.out with sending := some f, starvation := starvation }

/-- Send the transit head, which leaves the FIFO (R71, R73). -/
def sendTransit (f : Frame) (rest : List Frame) (starvation : Nat) (s : State) : State :=
  s.withOut { fifo := rest, sending := some f, starvation := starvation }

/-- Send the origination offer (R75); the starvation count is set to 0 (R74). -/
def Event.sendOffer (e : Event) (o : Offer) : Event :=
  let (e', f) := e.commitOffer o
  e'.on (startSending f 0)

/-- The choice of the Output Arbiter by the rows of R74, made when it is IDLE_LINE and the outbound link RUNNING; with
nothing to choose it stays IDLE_LINE. -/
def Event.chooseOutput (e : Event) : Event :=
  if e.out.sending.isSome ∨ e.link.outbound = .quiet then e
  else
    match e.out.fifo, originationOffer e.toState with
    | [], some o => e.sendOffer o
    | [], none => e
    | f :: rest, some o =>
      if e.out.starvation = Config.starvationLimit ∧ rest.length + 1 ≤ 2 then e.sendOffer o
      else e.on (sendTransit f rest (min Config.starvationLimit (e.out.starvation + 1)))
    | f :: rest, none => e.on (sendTransit f rest 0)

/-! ## The end of an event -/

/-- The choices of a moment: the Output Arbiter's, with every frame and offer present (R73), then the Memory Arbiter's,
with every request present (R133; the order of the two is assumption 23). A choice raises no cause. -/
def choices (s : State) : State := arbitrate (Event.begin s).chooseOutput.toState

/-- Close an event: its causes reach the Attention Unit (R163), and the arbiters choose, but for an event that another
event of its moment follows, which leaves the choices to the last (R73, R77, R131, R133, R136; assumption 25). -/
def Event.finish (e : Event) : State :=
  let s := e.commit
  match s.moments with
  | [] => choices s
  | 0 :: later => choices (s.withMoments later)
  | (k + 1) :: later => s.withMoments (k :: later)

/-! ## The commands -/

/-- HOST_CYCLE_ACCEPTANCE (R2). -/
def execHostCycleAcceptance (addr : ByteAddr) (dir : Direction) (lanes : Lanes) (data : Word) (s : State) :
    Host.Outcome State Fault Refusal :=
  .next (((Event.begin s).on (presentCycle { addr := addr, dir := dir, lanes := lanes, data := data })).acceptPresented
    |>.finish)

/-- REFUSED_WRITE_COMPLETION (R14): it waits only after the acceptance of a refused write, with RESET_N high. -/
def execRefusedWriteCompletion (s : State) : Host.Outcome State Fault Refusal :=
  if s.resetN ∧ s.host.refusedDelay then
    .next (((Event.begin s).on signalRefused).acceptPresented.finish)
  else .next s

/-- What a completed memory cycle does: the port is FREE, the write lands or the read's data is handed over, and the
requester granted goes on (R132, R14, R129). A read's enabled lanes carry local memory's bytes, the others what memory
drives (assumption 3). -/
def Event.memoryDone (e : Event) (c : MemCycle) (sd : Word) : Event :=
  let e := e.on fun s => s.withArb { s.arb with cycle := none }
  let e := match c.dir with
    | .write => e.on fun s => s.withMem (s.mem.writeWord c.word c.lanes c.data)
    | .read => e
  match c.grant with
  | .host =>
    (e.on (completeHostCycle (match c.dir with
      | .read => some (mergeLanes sd (e.mem.readWord c.word) c.lanes)
      | .write => none))).acceptPresented
  | .apply => e.applyWordDone

/-- MEMORY_CYCLE_COMPLETION (R132): while no memory cycle runs there is none to complete. -/
def execMemoryCycleCompletion (sd : Word) (s : State) : Host.Outcome State Fault Refusal :=
  match s.arb.cycle with
  | some c => .next ((Event.begin s).memoryDone c sd).finish
  | none => .next s

/-- PUBLISH_HOLD_EXPIRY (R46). -/
def execPublishHoldExpiry (s : State) : Host.Outcome State Fault Refusal :=
  if publishHoldDue s then .next (Event.begin s).expirePublishHold.finish else .next s

/-- TRANSMISSION_COMPLETION (R73): the link is idle and the Output Arbiter makes its next choice. -/
def execTransmissionCompletion (s : State) : Host.Outcome State Fault Refusal :=
  if s.out.sending.isSome then
    .next ((Event.begin s).on fun s => s.withOut { s.out with sending := none }).finish
  else .next s

/-- RETURN_TIMER_EXPIRY (R90). -/
def execReturnTimerExpiry (s : State) : Host.Outcome State Fault Refusal :=
  if returnTimerDue s then .next ((Event.begin s).goBackReported false .timerExpiry).finish else .next s

/-- ANNOUNCE_TIMER_EXPIRY (R96). -/
def execAnnounceTimerExpiry (s : State) : Host.Outcome State Fault Refusal :=
  if announceTimerDue s then .next (((Event.begin s).on retryAnnounce).report .timerExpiry).finish else .next s

/-- BACKOFF_EXPIRY (R92): the timer is IDLE and the resend offer appears. -/
def execBackoffExpiry (s : State) : Host.Outcome State Fault Refusal :=
  if backoffDue s then
    .next ((Event.begin s).on fun s => s.withOrig { s.orig with backoff := none }).finish
  else .next s

/-- TIMEBASE_ADVANCE (R155): the timebase advances by one and wraps; while RESET_N is low it is held at 0. -/
def execTimebaseAdvance (s : State) : Host.Outcome State Fault Refusal :=
  if s.resetN then .next (s.withNode { s.node with timebase := s.node.timebase + 1 }) else .next s

/-- HSTB_N_RELEASE (R2). -/
def execHstbNRelease (s : State) : Host.Outcome State Fault Refusal := .next (releaseStrobe s)

end Sys2Proof.Machine
end

