-- ==== Sys2Proof/Machine/Reception.lean ====
section
/-! DEFINITION. The Reception Unit: the handling of one arrival in the steps of R102, the Sequence Table (R106 to R111),
gaps and duplicates (R116 to R118), objection and forwarding (R119, R120), orphans and transit drops (R70, R72). -/

namespace Sys2Proof.Machine

/-! ## The Sequence Table (R106, R107) -/

/-- Change the entry of a source. -/
def updateSource (n : NodeId) (f : SeqEntry → SeqEntry) (s : State) : State :=
  s.withSources (s.sources.set n (f s.sources[n]))

/-- Re-base an entry (R107). -/
def SeqEntry.rebase (x : SeqEntry) (q : Byte) : SeqEntry := { x with known := true, expected := q }

/-- A frame that is taken moves its source's entry on (R111). -/
def SeqEntry.take (x : SeqEntry) : SeqEntry := { x with expected := x.expected + 1, taken := x.taken + 1 }

/-- Count a gap (R116, R117). -/
def SeqEntry.countGap (x : SeqEntry) : SeqEntry := { x with gaps := satSucc16 x.gaps }

/-- Count a duplicate (R118). -/
def SeqEntry.countDuplicate (x : SeqEntry) : SeqEntry := { x with duplicates := satSucc16 x.duplicates }

/-! ## Forwarding (R70 to R72, R120) -/

/-- Append a frame to the Transit FIFO with hops one greater and NAK as its handling left it; a full FIFO drops it with
TRANSIT_DROP and a transit-drop report (R72, R120). -/
def Event.forward (e : Event) (f : Frame) (nak : Bool) : Event :=
  if Config.fifoCapacity ≤ e.out.fifo.length then (e.raise (.transitDrop f.source f.seq)).report .transitDrop
  else e.on fun s => s.withOut { s.out with fifo := s.out.fifo ++ [{ f with hops := f.hops + 1, nak := nak }] }

/-- Remove an orphan (R70). -/
def countOrphan (s : State) : State := s.withLink { s.link with orphans := satSucc16 s.link.orphans }

/-! ## An UPDATE in order (R111 to R115) -/

/-- The channel lookup among the enabled windows (R20). -/
def channelLookup (ws : Vector Window 16) (ch : Byte) : Option WinIdx :=
  allWindows.find? fun i => ws[i].enabled && ws[i].channel == ch

/-- The span lies in the window (R20, R113). -/
def Window.holdsSpan (w : Window) (span : SpanOffset) : Bool := 4 * span.toNat < w.size

/-- Local word address of the first word of a span (R20, R114). -/
def Window.spanBase (w : Window) (span : SpanOffset) : WordAddr := w.base + BitVec.ofNat 22 (4 * span.toNat)

/-- Take a frame of a source. -/
def Event.take (e : Event) (src : NodeId) : Event := e.on (updateSource src SeqEntry.take)

/-- The outcomes of the table of R111; the answer says whether the frame is objected to. -/
def Event.inOrder (e : Event) (f : Frame) (ch : Byte) (span : SpanOffset) (mask : SpanMask) (words : List Word) :
    Event × Bool :=
  match channelLookup e.windows ch with
  | none => (e.take f.source, false)
  | some i =>
    match e.windows[i].kind with
    | .owned => ((e.raise (.ownerConflict i f.source f.seq)).take f.source, false)
    | .mirror =>
      if e.windows[i].holdsSpan span = false then
        ((e.raise (.rangeError i f.source f.seq)).take f.source, false)
      else if applyRoom e.toState then
        ((e.on (createApplyEntry (e.windows[i].spanBase span) mask words i)).take f.source, false)
      else if e.node.level = .normal then (e, true)
      else ((e.requestStale i).take f.source, false)

/-- The enabled MIRROR windows (R117). -/
def enabledMirrors (ws : Vector Window 16) : List WinIdx :=
  allWindows.filter fun i => ws[i].enabled && ws[i].kind = .mirror

/-- The distance of a frame from what is expected (R110). -/
def distance (x : SeqEntry) (q : Byte) : Nat := (q - x.expected).toNat

/-- Step 6 for an UPDATE, and step 7 for one in order (R109 to R118). -/
def Event.updateArrived (e : Event) (f : Frame) (ch : Byte) (span : SpanOffset) (mask : SpanMask)
    (words : List Word) : Event × Bool :=
  let x := e.sources[f.source]
  if x.known = false then
    ((e.on (updateSource f.source fun x => x.rebase f.seq)).raise (.sourceAdopted f.source f.seq)).inOrder
      f ch span mask words
  else if distance x f.seq = 0 then e.inOrder f ch span mask words
  else if distance x f.seq < 128 then
    let e := e.on (updateSource f.source SeqEntry.countGap)
    if e.node.level = .normal then (e, true)
    else
      ((e.requestStaleAll (enabledMirrors e.windows)).on (updateSource f.source fun x => x.rebase f.seq)).inOrder
        f ch span mask words
  else (e.on (updateSource f.source SeqEntry.countDuplicate), false)

/-! ## The whole handling (R102) -/

/-- Steps 2 to 8 of a well-formed arrival. -/
def Event.goodArrival (e : Event) (f : Frame) : Event :=
  if f.source = e.node.nodeId then e.returned f
  else if f.hops = 15 then e.on countOrphan
  else if e.node.mode = .offline then e.forward f f.nak
  else
    match f.body with
    | .announce => (e.on (updateSource f.source fun x => x.rebase f.seq)).forward f f.nak
    | .update ch span mask words =>
      let (e', objects) := e.updateArrived f ch span mask words
      e'.forward f (f.nak || objects)

/-- The handling of one arrival (R102, R103). -/
def Event.receive (e : Event) (bytes : List Byte) : Event :=
  match parseFrame bytes with
  | none => e.report .badFrame
  | some f => (e.report .goodFrame).goodArrival f

end Sys2Proof.Machine
end

