-- ==== Sys2Proof/Machine/Link.lean ====
section
/-! DEFINITION. The Link Interface: inbound state and runs (R58 to R61), frame delimiting and cut-offs (R63, R64), and
the commands of the inbound link. A command for a run of symbols (LINK_UP, ALIGNMENT_LOST, FRAME_ARRIVAL) stands for
the symbols from the state as it is up to the one that completes the row's event (assumption 8). -/

namespace Sys2Proof.Machine

/-- The signal detector finds a transition now (R58). -/
def stampTransition (s : State) : State := s.withLink { s.link with lastTransition := s.node.timebase }

/-- Cut off the partial frame, if there is one: it is discarded, symbols are ignored until the next START, and the
cut-off is reported (R64). -/
def Event.cutOff (e : Event) : Event :=
  if e.link.assembly.isSome then
    (e.on fun s => s.withLink { s.link with assembly := none, skip := true }).report .cutOff
  else e

/-- A new, empty partial frame (R63). -/
def openFrame (s : State) : State := s.withLink { s.link with assembly := some [], skip := false }

/-- Entry into UP (R60). -/
def Event.enterUp (e : Event) : Event :=
  (e.on fun s => s.withLink { s.link with inbound := .up, validRun := Config.alignRun, invalidRun := 0 }).raise
    .linkChange

/-- Exit from UP to ALIGNING (R61). -/
def Event.loseAlignment (e : Event) : Event :=
  (e.on fun s => s.withLink { s.link with inbound := .aligning, validRun := 0, invalidRun := Config.loseRun
                                          assembly := none, skip := true }).raise .linkChange

/-- A frame arrival: the partial frame is handed to the Reception Unit (R63, R102). -/
def Event.frameEnd (e : Event) (bytes : List Byte) : Event :=
  (e.on fun s => s.withLink { s.link with assembly := none, skip := true }).receive bytes

/-- A valid symbol in UP (table of R63). -/
def Event.validInUp (e : Event) (sym : Symbol) : Event :=
  let e := e.on fun s => s.withLink { s.link with invalidRun := 0 }
  match sym, e.link.assembly with
  | .startFrame, some _ => e.cutOff.on openFrame
  | .startFrame, none => e.on openFrame
  | .data v, some bs =>
    if Config.maxPartial ≤ bs.length then e.cutOff
    else e.on fun s => s.withLink { s.link with assembly := some (bs ++ [v]) }
  | .endFrame, some bs => e.frameEnd bs
  | .idle, some _ => e.cutOff
  | _, _ => e

/-- An invalid symbol in UP: it cuts off a partial frame and adds to the invalid run (R61, R64). -/
def Event.invalidInUp (e : Event) : Event :=
  let e := e.cutOff
  if e.link.invalidRun + 1 ≥ Config.loseRun then e.loseAlignment
  else e.on fun s => s.withLink { s.link with invalidRun := s.link.invalidRun + 1 }

/-- A received symbol (R60, R61, R63). In ALIGNING an invalid group moves the group boundary one bit later (R188). -/
def Event.symbol (e : Event) (sym : Symbol) : Event :=
  match e.link.inbound with
  | .noSignal => e
  | .aligning =>
    if sym = .invalid then
      e.on fun s => s.withLink { s.link with validRun := 0, groupBoundary := s.link.groupBoundary + 1 }
    else if e.link.validRun + 1 ≥ Config.alignRun then e.enterUp
    else e.on fun s => s.withLink { s.link with validRun := s.link.validRun + 1 }
  | .up => if sym = .invalid then e.invalidInUp else e.validInUp sym

/-! ## The commands -/

/-- SYMBOL_RECEIVED (R58, R60 to R63): in ALIGNING and UP a code group is received; a transition inside it is stamped. -/
def execSymbolReceived (group : BitVec 10) (s : State) : Host.Outcome State Fault Refusal :=
  if s.resetN ∧ s.link.inbound ≠ .noSignal then
    let s := if groupHasTransition group then stampTransition s else s
    .next ((Event.begin s).symbol (classifyGroup group)).finish
  else .next s

/-- SIGNAL_DETECTED (R58, R59): a transition is found; in NO_SIGNAL it takes the inbound state to ALIGNING. -/
def execSignalDetected (s : State) : Host.Outcome State Fault Refusal :=
  if s.resetN then
    let s := stampTransition s
    .next (if s.link.inbound = .noSignal then s.withLink { s.link with inbound := .aligning, validRun := 0 } else s)
  else .next s

/-- The loss of signal has come due (R58, R59). -/
def lossOfSignalDue (s : State) : Bool :=
  s.resetN && s.link.inbound != .noSignal && elapsed s.node.timebase s.link.lastTransition Config.lossOfSignalTime

/-- Loss of signal: a partial frame is cut off first; leaving UP raises LINK_CHANGE (R59, R61, R64). -/
def Event.loseSignal (e : Event) : Event :=
  let wasUp := e.link.inbound == .up
  let e := e.cutOff.on fun s => s.withLink { s.link with inbound := .noSignal, skip := true }
  if wasUp then e.raise .linkChange else e

/-- LOSS_OF_SIGNAL (R59). -/
def execLossOfSignal (s : State) : Host.Outcome State Fault Refusal :=
  if lossOfSignalDue s then .next (Event.begin s).loseSignal.finish else .next s

/-- LINK_UP (R60): the valid symbol at which the valid run reaches 32, with the valid symbols before it. -/
def execLinkUp (s : State) : Host.Outcome State Fault Refusal :=
  if s.resetN ∧ s.link.inbound = .aligning then .next ((Event.begin s).on stampTransition).enterUp.finish
  else .next s

/-- The first invalid symbol of a run cuts off a partial frame; it is an event of its own, with its own causes
(R64, R163). -/
def runBegins (s : State) : State := if s.link.assembly.isSome then (Event.begin s).cutOff.commit else s

/-- ALIGNMENT_LOST (R61): the invalid symbol at which the invalid run reaches 4, after the invalid symbols before it,
the first of which cuts off a partial frame (R64). -/
def execAlignmentLost (s : State) : Host.Outcome State Fault Refusal :=
  if s.resetN ∧ s.link.inbound = .up then .next (Event.begin (runBegins s)).loseAlignment.finish else .next s

/-- FRAME_CUT_OFF (R64): the symbol that cuts off the partial frame; a data symbol is its 28th byte. END never cuts
off. -/
def execFrameCutOff (sym : Symbol) (s : State) : Host.Outcome State Fault Refusal :=
  if s.resetN ∧ s.link.inbound = .up ∧ s.link.assembly.isSome then
    match sym with
    | .startFrame => .next (((Event.begin s).on stampTransition).validInUp .startFrame).finish
    | .idle => .next (((Event.begin s).on stampTransition).validInUp .idle).finish
    | .data _ =>
      .next (((Event.begin s).on stampTransition).on fun s => s.withLink { s.link with invalidRun := 0 }).cutOff.finish
    | .invalid => .next (Event.begin s).invalidInUp.finish
    | .endFrame => .next s
  else .next s

/-- The bytes can be those of the frame now arriving: at most 27, and they continue the partial frame if one is held. -/
def canArrive (bytes : List Byte) (s : State) : Bool :=
  s.resetN && s.link.inbound = .up && bytes.length ≤ Config.maxPartial &&
    match s.link.assembly with
    | some held => held.isPrefixOf bytes
    | none => true

/-- FRAME_ARRIVAL (R102): the END of the frame whose bytes are given, with the symbols of it not yet received. -/
def execFrameArrival (bytes : List Byte) (s : State) : Host.Outcome State Fault Refusal :=
  if canArrive bytes s then
    .next ((((Event.begin s).on stampTransition).on fun s =>
      s.withLink { s.link with invalidRun := 0 }).frameEnd bytes).finish
  else .next s

end Sys2Proof.Machine
end

