-- ==== Sys2Proof/Machine/Windows.lean ====
section
/-! DEFINITION. The window commands' effects (R23 to R34) and the status codes of every response (R179, R189). An
effect answers the state after it and the response: the status byte and its data. -/

namespace Sys2Proof.Machine

/-! ## Status codes (R189) -/

def statusOk : Byte := 0x00
def statusBusy : Byte := 0x01
def statusBadState : Byte := 0x02
def statusBadArg : Byte := 0x03
def statusConflict : Byte := 0x04
def statusNoLink : Byte := 0x05
def statusUnknown : Byte := 0x06

/-- An index byte 0..15; any other is BAD_ARG and changes nothing (R24, R122). -/
def withIndex (n : Byte) (s : State) (f : Fin 16 → State × List Byte) : State × List Byte :=
  if h : n.toNat < 16 then f ⟨n.toNat, h⟩ else (s, [statusBadArg])

/-! ## READ_WINDOW (R23, R25, R190) -/

/-- The queued count: Publish Queue entries whose origin window it is, or Apply Queue entries of it (R23). -/
def queuedCount (s : State) (i : WinIdx) : Nat :=
  match s.windows[i].kind with
  | .owned => s.pq.entries.countP fun p => p.window = i
  | .mirror => s.aq.entries.countP fun a => a.window = i

/-- Data of READ_WINDOW (R190). -/
def windowBytes (w : Window) (queued : Nat) : List Byte :=
  [bitAt (w.kind = .mirror) 7 ||| bitAt w.enabled 6 ||| bitAt w.combine 5 ||| bitAt (w.policy = .refuse) 4 |||
    bitAt w.diverged 1 ||| bitAt w.stale 0] ++ bytes24 (w.base.setWidth 24) ++
    [w.sizeCode, w.channel, byteOf w.cls.val] ++ bytes32 w.updates ++ [byteOf queued]

def readWindowEffect (n : Byte) (s : State) : State × List Byte :=
  withIndex n s fun i => (s, statusOk :: windowBytes s.windows[i] (queuedCount s i))

/-! ## WRITE_WINDOW (R26, R27) -/

/-- The record a WRITE_WINDOW would write, when kind, combine and policy hold one of their values, the size code is
4..20, the class 0..3 and the base a word address; none gives BAD_ARG (R26, R189). -/
def configuration (kind : Byte) (base : BitVec 24) (sizeCode channel cls combine policy : Byte) : Option Window :=
  if kind.toNat ≤ 1 ∧ combine.toNat ≤ 1 ∧ policy.toNat ≤ 1 ∧ 4 ≤ sizeCode.toNat ∧ sizeCode.toNat ≤ 20 ∧
      cls.toNat ≤ 3 ∧ base.toNat < 2 ^ 22 then
    some { kind := if kind = 0 then .owned else .mirror, enabled := false, base := base.setWidth 22
           sizeCode := sizeCode, channel := channel, cls := Fin.ofNat 4 cls.toNat, combine := combine = 1
           policy := if policy = 0 then .accept else .refuse, diverged := false, stale := false, updates := 0 }
  else none

/-- The base is a multiple of the size (R18, R26). -/
def Window.aligned (w : Window) : Bool := w.base.toNat % w.size == 0

def writeWindowEffect (n kind : Byte) (base : BitVec 24) (sizeCode channel cls combine policy : Byte) (s : State) :
    State × List Byte :=
  withIndex n s fun i =>
    if s.windows[i].enabled then (s, [statusBusy])
    else
      match configuration kind base sizeCode channel cls combine policy with
      | some w => if w.aligned then (s.withWindows (s.windows.set i w), [statusOk]) else (s, [statusBadArg])
      | none => (s, [statusBadArg])

/-! ## ENABLE_WINDOW (R28, R29) -/

/-- The ranges have a word in common (R19). -/
def Window.overlaps (v w : Window) : Bool :=
  v.base.toNat < w.base.toNat + w.size && w.base.toNat < v.base.toNat + v.size

/-- An enabled window fails one of the two conflict checks against `w` (R28). -/
def Window.conflictsWith (v w : Window) : Bool :=
  v.channel == w.channel || (v.kind != w.kind && v.overlaps w)

/-- The lowest-index enabled window in conflict with window n (R28). -/
def conflictOf (ws : Vector Window 16) (n : WinIdx) : Option WinIdx :=
  allWindows.find? fun i => ws[i].enabled && ws[i].conflictsWith ws[n]

/-- The configuration has been written since hard reset (R28). -/
def Window.written (w : Window) : Bool := 4 ≤ w.sizeCode.toNat && w.sizeCode.toNat ≤ 20

def enableWindowEffect (n : Byte) (s : State) : State × List Byte :=
  withIndex n s fun i =>
    if s.windows[i].enabled then (s, [statusOk])
    else if s.windows[i].written = false then (s, [statusBadState])
    else
      match conflictOf s.windows i with
      | some j => (s, [statusConflict, byteOf j.val])
      | none => (s.withWindows (s.windows.set i { s.windows[i] with enabled := true }), [statusOk])

/-! ## DISABLE_WINDOW (R30 to R33, R49) and CLEAR_WINDOW (R34) -/

/-- The window no longer takes part in matching and lookup (R30). -/
def disableRecord (i : WinIdx) (s : State) : State :=
  s.withWindows (s.windows.set i { s.windows[i] with enabled := false })

/-- A write in PUBLISH_HOLD on this window is demoted to PLAIN (R33, R49). -/
def demoteHeldOn (i : WinIdx) (s : State) : State := if heldWindow s = some i then demotePlain s else s

/-- The WAITING Apply Queue entries of a MIRROR window are voided (R32). -/
def voidOfWindow (i : WinIdx) (s : State) : State :=
  if s.windows[i].kind = .mirror then voidWaiting (fun a => a.window = i) s else s

def disableWindowEffect (n : Byte) (s : State) : State × List Byte :=
  withIndex n s fun i =>
    if s.windows[i].enabled then
      (((Event.begin s).on fun s => voidOfWindow i (demoteHeldOn i (disableRecord i s))).finish, [statusOk])
    else (s, [statusOk])

def clearWindowEffect (n : Byte) (s : State) : State × List Byte :=
  withIndex n s fun i =>
    (s.withWindows (s.windows.set i { s.windows[i] with diverged := false, stale := false }), [statusOk])

end Sys2Proof.Machine
end

