-- ==== Sys2Proof/Machine/Resets.lean ====
section
/-! DEFINITION. The hard reset, its release and the soft reset, block by block (tables of R16, R35, R36, R56, R76, R77,
R100, R123, R139, R140, R158, R159, R172, R180, R185), and the start and stop of the node (R144, R145). -/

namespace Sys2Proof.Machine

/-! ## Hard reset -/

/-- The Host Path at the fall of RESET_N: a cycle in REQUESTING or MEMORY is kept, a held cycle enters REQUESTING (a
held write as PLAIN), and no completion of a refused write is signalled any more (R16; assumption 9). -/
def HostPath.hardReset (h : HostPath) : HostPath :=
  let h := { h with holdMark := 0, holdStart := 0, refusedDelay := false, herr := false }
  match h.hold with
  | .noHold => h
  | .readHold => { h with path := .requesting, hold := .noHold }
  | .publishHold =>
    { h with path := .requesting, hold := .noHold
             cycle := h.cycle.map fun c => { c with cls := .plain, window := none } }

/-- Every block at its hard-reset value; a running memory cycle, local memory, the node ID (until it is sampled) and
the levels of the pins stay (R16, R140, R157, R158, R180). -/
def enterHardReset (s : State) : State :=
  { resetN := false
    host := s.host.hardReset
    windows := Vector.replicate 16 Window.reset
    pq := PublishQueue.reset
    orig := Origination.reset
    link := LinkInterface.reset
    out := OutputArbiter.reset
    sources := Vector.replicate 16 SeqEntry.reset
    aq := ApplyQueue.reset
    arb := { s.arb with lastGrant := .host }
    node := { NodeControl.reset with nodeId := s.node.nodeId }
    attn := Attention.reset
    mgmt := { s.mgmt with txn := Transaction.idle, mdo := none }
    mem := s.mem
    pending := s.pending
    moments := s.moments }

/-- HARD_RESET (R158): the fall of RESET_N; while it is low there is no further fall. The host request of an accepted
cycle is granted at once when the port is FREE (R16, R140). -/
def execHardReset (s : State) : Host.Outcome State Fault Refusal :=
  if s.resetN then .next ((Event.begin s).on enterHardReset).finish else .next s

/-- The rise of RESET_N: the node ID is sampled, the outbound link begins to send, the last-grant marker is HOST
(R62, R140, R157, R193). -/
def leaveHardReset (straps : NodeId) (s : State) : State :=
  { s with resetN := true
           node := { s.node with nodeId := straps }
           link := { s.link with outbound := .running }
           arb := { s.arb with lastGrant := .host } }

/-- RESET_RELEASE (R157): a new cycle the host presents is accepted at the rise (R2, R16). -/
def execResetRelease (straps : NodeId) (s : State) : Host.Outcome State Fault Refusal :=
  if s.resetN then .next s
  else .next ((Event.begin s).on (leaveHardReset straps)).acceptPresented.finish

/-! ## Soft reset (R185) -/

/-- Update counts are set to 0; configuration, enabled fields and flags are kept (R36). -/
def zeroUpdates (s : State) : State := s.withWindows (s.windows.map fun w => { w with updates := 0 })

/-- The Sequence Table after a reset (R123). -/
def resetSources (s : State) : State := s.withSources (Vector.replicate 16 SeqEntry.reset)

/-- Transit FIFO emptied, starvation count and orphan count 0; a transmission goes on (R77). -/
def softResetLinks (s : State) : State :=
  (s.withOut { s.out with fifo := [], starvation := 0 }).withLink { s.link with orphans := 0 }

/-- OFFLINE at NORMAL with both counters 0; parameters, node ID and timebase kept (R159). -/
def softResetNode (s : State) : State :=
  s.withNode { s.node with mode := .offline, level := .normal, lif := 0, rtf := 0 }

/-- Announce record abandoned and stale return count 0 (R100). -/
def softResetOrigination (s : State) : State :=
  s.withOrig { s.orig with announce := none, staleReturns := 0 }

/-- The last part of a soft reset: the Attention Unit is cleared, with every cause the event itself raised (R172). -/
def Event.clearAttention (e : Event) : Event :=
  { e with attn := Attention.reset, raised := [] }

/-- The soft reset as one event (R185). -/
def Event.softReset (e : Event) : Event :=
  (e.demoteUnpublished.discardPq.discardFlight.on fun s =>
    softResetNode (softResetLinks (resetSources (voidWaiting (fun _ => true)
      (zeroUpdates (softResetOrigination s)))))).clearAttention

def softResetEffect (s : State) : State × List Byte := ((Event.begin s).softReset.finish, [statusOk])

/-! ## START and STOP (R144, R145) -/

/-- What START does as one event (R144, R123). -/
def startNode (s : State) : State :=
  createAnnounce ((s.withSources (s.sources.map fun x => { x with known := false, expected := 0 })).withNode
    { s.node with mode := .joining, level := .normal, lif := 0, rtf := 0 })

def startEffect (s : State) : State × List Byte :=
  if s.node.mode ≠ .offline then (s, [statusBadState])
  else if s.link.inbound ≠ .up then (s, [statusNoLink])
  else (((Event.begin s).on startNode).finish, [statusOk])

def stopEffect (s : State) : State × List Byte :=
  match s.node.mode with
  | .active =>
    (((Event.begin s).on (setMode .draining)).demoteUnpublished.drainCheck.finish, [statusOk])
  | .joining =>
    ((((Event.begin s).discardPq.demoteUnpublished.on fun s => setMode .offline (abandonAnnounce s)).raise
      .drainDone).finish, [statusOk])
  | .draining => (s, [statusOk])
  | .offline => (s, [statusBadState])

end Sys2Proof.Machine
end

