-- ==== Sys2Proof/Machine/Management.lean ====
section
/-! DEFINITION. The Management Port: the other commands' effects and response layouts (R53, R122, R167 to R171, R181 to
R184, R190 to R192), command codes (R175, R189), the transaction (R173 to R177) and its commands. -/

namespace Sys2Proof.Machine

/-! ## Responses of the port and the node -/

/-- IDENT (R181, R190). -/
def identEffect (s : State) : State × List Byte :=
  (s, statusOk :: (bytes16 Config.partCode ++ [Config.revision, byteOf s.node.nodeId.val]))

/-- Codes of R192. -/
def Mode.code : Mode → Nat
  | .offline => 0
  | .joining => 1
  | .active => 2
  | .draining => 3

def Level.code : Level → Nat
  | .normal => 0
  | .degraded => 1
  | .isolated => 2

def PathState.code : PathState → Nat
  | .free => 0
  | .holding => 1
  | .requesting => 2
  | .memory => 3

def HoldState.code : HoldState → Nat
  | .noHold => 0
  | .publishHold => 1
  | .readHold => 2

def InboundState.code : InboundState → Nat
  | .noSignal => 0
  | .aligning => 1
  | .up => 2

/-- Announce state of byte 25: absent, AWAITING_SEND or SENT. -/
def announceCode (a : Option AnnounceRecord) : Nat :=
  match a with
  | none => 0
  | some r => if r.state = .sent then 2 else 1

/-- Bytes 1..7 (R160). -/
def statusNode (n : NodeControl) : List Byte :=
  [byteOf (n.mode.code * 64 + n.level.code * 16 + n.nodeId.val), n.lif, n.rtf] ++ bytes32 n.timebase

/-- Bytes 8..15 (R15, R182): the held window is present in PUBLISH_HOLD alone. -/
def statusHost (s : State) : List Byte :=
  let h := s.host
  [byteOf (h.path.code * 64 + h.hold.code * 16),
    match h.hold, heldWindow s with
    | .publishHold, some i => byteOf (128 + i.val)
    | _, _ => 0] ++
    bytes32 (if h.hold = .noHold then 0 else h.holdStart) ++ bytes16 (if h.hold = .readHold then h.holdMark else 0)

/-- Bytes 16..19 (R57). -/
def statusPublish (q : PublishQueue) : List Byte :=
  [byteOf q.class0.length, byteOf q.class1.length, byteOf q.class2.length, byteOf q.class3.length]

/-- Bytes 20..28 (R101). -/
def statusOrigination (o : Origination) : List Byte :=
  [o.nextSeq, byteOf o.flight.length,
    match o.flight with | h :: _ => h.seq | [] => 0,
    match o.flight with | h :: _ => h.retry | [] => 0,
    byteOf (o.flight.countP fun f => f.state = .awaitingResend),
    bitAt o.backoff.isSome 7 ||| byteOf (announceCode o.announce * 16),
    match o.announce with | some r => r.retry | none => 0] ++ bytes16 o.staleReturns

/-- Bytes 29..32 (R78). -/
def statusLinks (s : State) : List Byte :=
  [byteOf (s.link.inbound.code * 64 + s.out.fifo.length), byteOf s.out.starvation] ++ bytes16 s.link.orphans

/-- Bytes 33..38 (R141). -/
def statusApply (s : State) : List Byte :=
  [byteOf s.aq.entries.length] ++
    bytes16 (match s.aq.entries with | a :: _ => a.acc | [] => 0) ++
    [bitAt (match s.aq.entries with | a :: _ => a.state = .writing | [] => false) 7 |||
      bitAt (s.arb.lastGrant = .apply) 6] ++
    bytes16 s.aq.nextAcc

/-- Data of STATUS (R182, R192). -/
def statusData (s : State) : List Byte :=
  statusNode s.node ++ statusHost s ++ statusPublish s.pq ++ statusOrigination s.orig ++ statusLinks s ++ statusApply s

def statusEffect (s : State) : State × List Byte := (s, statusOk :: statusData s)

/-- READ_PARAMS (R183, R189). -/
def readParamsEffect (s : State) : State × List Byte :=
  let p := s.node.params
  (s, statusOk :: (bytes16 p.rto ++ bytes16 p.phl ++ [p.retryLimit] ++ bytes16 p.nakBackoff))

/-- SET_PARAMS (R184); the check of PHL never fails. -/
def setParamsEffect (rto phl : BitVec 16) (retryLimit : Byte) (nakBackoff : BitVec 16) (s : State) :
    State × List Byte :=
  if s.node.mode ≠ .offline then (s, [statusBadState])
  else if rto.toNat < 16 then (s, [statusBadArg])
  else if retryLimit = 0 then (s, [statusBadArg])
  else if 1023 < nakBackoff.toNat then (s, [statusBadArg])
  else
    (s.withNode { s.node with params := { rto := rto, phl := phl, retryLimit := retryLimit, nakBackoff := nakBackoff } },
      [statusOk])

/-! ## FLUSH and READ_SOURCE -/

/-- The removal of a class list with its requests, the check for room and the end of a drain (R53, R45, R146). -/
def Event.flushClass (e : Event) (c : PrioClass) : Event :=
  (((e.on fun s => s.withPq (s.pq.setClassList c [])).requestDivergedAll
    ((e.pq.classList c).map PqEntry.window)).roomCheck).drainCheck

def flushEffect (c : Byte) (s : State) : State × List Byte :=
  if h : c.toNat < 4 then
    let l := s.pq.classList ⟨c.toNat, h⟩
    if l = [] then (s, [statusOk, 0])
    else (((Event.begin s).flushClass ⟨c.toNat, h⟩).finish, [statusOk, byteOf l.length])
  else (s, [statusBadArg])

/-- READ_SOURCE (R122, R190). -/
def readSourceEffect (n : Byte) (s : State) : State × List Byte :=
  withIndex n s fun i =>
    let x := s.sources[i]
    (s, statusOk :: ([bitAt x.known 0, x.expected] ++ bytes32 x.taken ++ bytes16 x.duplicates ++ bytes16 x.gaps))

/-! ## Commands of the Attention Unit -/

/-- READ_EVENTS (R167, R191). -/
def readEventsEffect (s : State) : State × List Byte :=
  let a := s.attn
  (s, statusOk :: (bytes16 (a.raisedSet.setWidth 16) ++ bytes16 (a.enableSet.setWidth 16) ++
    [bitAt a.overflow 7 ||| byteOf a.queue.length]))

/-- Bits 14 and 15 of a set stand for no cause (R161). -/
def namesOnlyCauses (set : BitVec 16) : Bool := set.extractLsb' 14 2 == 0

/-- SET_ENABLES (R168). -/
def setEnablesEffect (set : BitVec 16) (s : State) : State × List Byte :=
  if namesOnlyCauses set then (s.withAttn { s.attn with enableSet := set.setWidth 14 }, [statusOk])
  else (s, [statusBadArg])

/-- ACK_EVENTS (R169). -/
def ackEventsEffect (set : BitVec 16) (s : State) : State × List Byte :=
  if namesOnlyCauses set then
    let left := s.attn.raisedSet &&& ~~~(set.setWidth 14)
    (s.withAttn { s.attn with raisedSet := left }, statusOk :: bytes16 (left.setWidth 16))
  else (s, [statusBadArg])

/-- The record part of TAKE_INCIDENT: bytes 2..13 (R191). -/
def incidentBytes (r : Incident) : List Byte :=
  [byteOf r.what.cause] ++ bytes32 r.time ++
    [byteOf ((r.what.window.map Fin.val).getD 0), byteOf ((r.what.source.map Fin.val).getD 0), r.what.seq.getD 0] ++
    bytes24 ((r.what.word.getD 0).setWidth 24) ++ [byteOf ((r.what.cls.map Fin.val).getD 0)]

/-- TAKE_INCIDENT (R170, R173): the head is reported and its removal held pending; execution removes nothing. -/
def takeIncidentEffect (s : State) : State × List Byte :=
  let a := s.attn
  let head := a.queue.head?
  (s.withMgmt { s.mgmt with txn := { s.mgmt.txn with removal := head, dropFlag := false } },
    statusOk :: ((bitAt head.isSome 7 ||| bitAt a.overflow 6 ||| byteOf a.queue.length) ::
      match head with
      | some r => incidentBytes r
      | none => List.replicate 12 0))

/-! ## Command codes (R175, R189) -/

/-- The code of a command. -/
def Command.code : Command → Byte
  | .ident => 0x01
  | .status => 0x02
  | .readParams => 0x03
  | .setParams => 0x04
  | .softReset => 0x0A
  | .readWindow => 0x10
  | .writeWindow => 0x11
  | .enableWindow => 0x12
  | .disableWindow => 0x13
  | .clearWindow => 0x14
  | .flush => 0x20
  | .readSource => 0x28
  | .start => 0x30
  | .stop => 0x31
  | .readEvents => 0x40
  | .setEnables => 0x41
  | .ackEvents => 0x42
  | .takeIncident => 0x43
  | .unknown code => code

/-- The eighteen commands. -/
def namedCommands : List Command :=
  [.ident, .status, .readParams, .setParams, .softReset, .readWindow, .writeWindow, .enableWindow, .disableWindow,
    .clearWindow, .flush, .readSource, .start, .stop, .readEvents, .setEnables, .ackEvents, .takeIncident]

/-- Decode the command byte (R175, R189). -/
def decodeCommand (code : Byte) : Command :=
  (namedCommands.find? fun c => c.code == code).getD (.unknown code)

/-- Argument bytes a command takes (R175). -/
def Command.argCount : Command → Nat
  | .setParams => 7
  | .writeWindow => 10
  | .readWindow => 1
  | .enableWindow => 1
  | .disableWindow => 1
  | .clearWindow => 1
  | .flush => 1
  | .readSource => 1
  | .setEnables => 2
  | .ackEvents => 2
  | .ident => 0
  | .status => 0
  | .readParams => 0
  | .softReset => 0
  | .start => 0
  | .stop => 0
  | .readEvents => 0
  | .takeIncident => 0
  | .unknown _ => 0

/-- Argument byte k. -/
def argByte (args : List Byte) (k : Nat) : Byte := args.getD k 0

/-- The sixteen-bit argument at byte k, most significant byte first (R189). -/
def arg16 (args : List Byte) (k : Nat) : BitVec 16 := argByte args k ++ argByte args (k + 1)

/-- What a command does at its execution, and its response (R176, R177). -/
def Command.effect (c : Command) (args : List Byte) (s : State) : State × List Byte :=
  match c with
  | .ident => identEffect s
  | .status => statusEffect s
  | .readParams => readParamsEffect s
  | .setParams => setParamsEffect (arg16 args 0) (arg16 args 2) (argByte args 4) (arg16 args 5) s
  | .softReset => softResetEffect s
  | .readWindow => readWindowEffect (argByte args 0) s
  | .writeWindow =>
    writeWindowEffect (argByte args 0) (argByte args 1) (argByte args 2 ++ argByte args 3 ++ argByte args 4)
      (argByte args 5) (argByte args 6) (argByte args 7) (argByte args 8) (argByte args 9) s
  | .enableWindow => enableWindowEffect (argByte args 0) s
  | .disableWindow => disableWindowEffect (argByte args 0) s
  | .clearWindow => clearWindowEffect (argByte args 0) s
  | .flush => flushEffect (argByte args 0) s
  | .readSource => readSourceEffect (argByte args 0) s
  | .start => startEffect s
  | .stop => stopEffect s
  | .readEvents => readEventsEffect s
  | .setEnables => setEnablesEffect (arg16 args 0) s
  | .ackEvents => ackEventsEffect (arg16 args 0) s
  | .takeIncident => takeIncidentEffect s
  | .unknown _ => (s, [statusUnknown])

/-! ## The transaction (R173 to R177) -/

/-- Change the transaction. -/
def setTxn (t : Transaction) (s : State) : State := s.withMgmt { s.mgmt with txn := t }

/-- Execution: the effect is made, the response is formed and the port is RESPONDING (R176). -/
def executeCommand (c : Command) (args : List Byte) (s : State) : State :=
  let (s', response) := c.effect args s
  setTxn { s'.mgmt.txn with port := .responding, bitCount := 0, shift := 0, command := some c, args := args
                            response := some response, position := 0 } s'

/-- A byte is complete in RECEIVING: it is the command byte or the next argument byte (R175, R176). -/
def receiveByte (b : Byte) (s : State) : State :=
  let t := s.mgmt.txn
  match t.command with
  | none =>
    let c := decodeCommand b
    if c.argCount = 0 then executeCommand c [] s
    else setTxn { t with bitCount := 0, shift := 0, command := some c } s
  | some c =>
    let args := t.args ++ [b]
    if c.argCount ≤ args.length then executeCommand c args s
    else setTxn { t with bitCount := 0, shift := 0, args := args } s

/-- MDI is sampled in RECEIVING (R174). -/
def receiveBit (mdi : Bool) (s : State) : State :=
  let t := s.mgmt.txn
  let b := (t.shift <<< 1) ||| bitAt mdi 0
  if t.bitCount + 1 = 8 then receiveByte b s else setTxn { t with bitCount := t.bitCount + 1, shift := b } s

/-- A rising edge samples a response bit; after the last the port is TRAILING (R177). -/
def sampleResponse (t : Transaction) : Transaction :=
  { t with bitCount := (t.bitCount + 1) % 8, position := t.position + 1
           port := if 8 * (t.response.getD []).length ≤ t.position + 1 then .trailing else .responding }

/-- The response bit at a position: bytes in order, most significant bit first (R174, R177). -/
def responseBit (t : Transaction) : Bool :=
  (((t.response.getD [])[t.position / 8]?).map fun b => b.getLsbD (7 - t.position % 8)).getD false

/-- A rising edge of MCLK with MSEL_N low and the port in a transaction (R174). -/
def clockRises (mdi : Bool) (s : State) : State :=
  let t := s.mgmt.txn
  match t.port with
  | .deselected => s
  | .receiving => receiveBit mdi s
  | .responding => setTxn (sampleResponse t) s
  | .trailing => setTxn { t with bitCount := (t.bitCount + 1) % 8 } s

/-- A falling edge of MCLK drives MDO: a response bit in RESPONDING, 0 in RECEIVING and TRAILING (R174, R177). -/
def clockFalls (s : State) : State :=
  match s.mgmt.txn.port with
  | .deselected => s
  | .receiving => s.withMgmt { s.mgmt with mdo := some false }
  | .responding => s.withMgmt { s.mgmt with mdo := some (responseBit s.mgmt.txn) }
  | .trailing => s.withMgmt { s.mgmt with mdo := some false }

/-- MCLK takes a level. -/
def setMclk (b : Bool) (s : State) : State := s.withMgmt { s.mgmt with mclk := b }

/-- MCLK_EDGE (R174): the level of MCLK changes; outside a transaction, and while RESET_N is low, that is all. -/
def execMclkEdge (edge : MclkEdge) (s : State) : Host.Outcome State Fault Refusal :=
  match edge with
  | .rising mdi =>
    if s.mgmt.mclk then .next s
    else if s.resetN then .next (clockRises mdi (setMclk true s)) else .next (setMclk true s)
  | .falling =>
    if s.mgmt.mclk then (if s.resetN then .next (clockFalls (setMclk false s)) else .next (setMclk false s))
    else .next s

/-- A transaction begins (R173). -/
def beginTransaction (s : State) : State :=
  s.withMgmt { s.mgmt with txn := { Transaction.idle with port := .receiving }, mdo := some false }

/-- TRANSACTION_BEGIN (R173, R180): MSEL_N falls; a transaction begins in DESELECTED with RESET_N high. -/
def execTransactionBegin (s : State) : Host.Outcome State Fault Refusal :=
  if s.mgmt.mselN then
    let low := s.withMgmt { s.mgmt with mselN := false }
    if s.resetN ∧ s.mgmt.txn.port = .deselected then .next (beginTransaction low) else .next low
  else .next s

/-- The pending removal of a TAKE_INCIDENT: the head leaves, and the overflow flag is cleared unless the drop flag is
set (R171). -/
def removeIncident (s : State) : State :=
  s.withAttn { s.attn with queue := s.attn.queue.tail
                           overflow := s.attn.overflow && s.mgmt.txn.dropFlag }

/-- The end of a transaction: a pending removal is taken in TRAILING and abandoned otherwise (R171, R177). -/
def endTransaction (s : State) : State :=
  let s' := if s.mgmt.txn.port = .trailing ∧ s.mgmt.txn.removal.isSome then removeIncident s else s
  s'.withMgmt { s'.mgmt with txn := Transaction.idle, mdo := none }

/-- TRANSACTION_END (R173, R176): MSEL_N rises. -/
def execTransactionEnd (s : State) : Host.Outcome State Fault Refusal :=
  if s.mgmt.mselN then .next s
  else
    let high := s.withMgmt { s.mgmt with mselN := true }
    if s.resetN then .next (endTransaction high) else .next high

/-! ## The command rows: the edges that complete the command (R176; assumption 10) -/

/-- The whole bytes received in this transaction. -/
def Transaction.received (t : Transaction) : List Byte :=
  match t.command with
  | none => []
  | some c => c.code :: t.args

/-- The bits received so far begin these bytes and do not complete them. -/
def Transaction.canComplete (t : Transaction) (bytes : List Byte) : Bool :=
  t.port = .receiving && t.received.isPrefixOf bytes &&
    match bytes[t.received.length]? with
    | some b => b >>> (8 - t.bitCount) == t.shift
    | none => false

/-- A command row: the edges of MCLK from the bits received so far to the one that completes the command's last byte
(R176). In any other state no such edge can come and nothing happens. -/
def commandRow (c : Command) (args : List Byte) (s : State) : Host.Outcome State Fault Refusal :=
  if s.resetN ∧ s.mgmt.txn.canComplete (c.code :: args) then .next (executeCommand c args (setMclk true s))
  else .next s

/-- IDENT (R181). -/
def execIdent (s : State) : Host.Outcome State Fault Refusal := commandRow .ident [] s
/-- STATUS (R182). -/
def execStatus (s : State) : Host.Outcome State Fault Refusal := commandRow .status [] s
/-- READ_PARAMS (R183). -/
def execReadParams (s : State) : Host.Outcome State Fault Refusal := commandRow .readParams [] s
/-- SET_PARAMS (R184): its seven argument bytes. -/
def execSetParams (rto phl : BitVec 16) (retryLimit : Byte) (nakBackoff : BitVec 16) (s : State) :
    Host.Outcome State Fault Refusal :=
  commandRow .setParams (bytes16 rto ++ bytes16 phl ++ [retryLimit] ++ bytes16 nakBackoff) s
/-- SOFT_RESET (R185). -/
def execSoftReset (s : State) : Host.Outcome State Fault Refusal := commandRow .softReset [] s
/-- READ_WINDOW (R25). -/
def execReadWindow (n : Byte) (s : State) : Host.Outcome State Fault Refusal := commandRow .readWindow [n] s
/-- WRITE_WINDOW (R26): its ten argument bytes. -/
def execWriteWindow (n kind : Byte) (base : BitVec 24) (sizeCode channel cls combine policy : Byte) (s : State) :
    Host.Outcome State Fault Refusal :=
  commandRow .writeWindow ([n, kind] ++ bytes24 base ++ [sizeCode, channel, cls, combine, policy]) s
/-- ENABLE_WINDOW (R28). -/
def execEnableWindow (n : Byte) (s : State) : Host.Outcome State Fault Refusal := commandRow .enableWindow [n] s
/-- DISABLE_WINDOW (R30). -/
def execDisableWindow (n : Byte) (s : State) : Host.Outcome State Fault Refusal := commandRow .disableWindow [n] s
/-- CLEAR_WINDOW (R34). -/
def execClearWindow (n : Byte) (s : State) : Host.Outcome State Fault Refusal := commandRow .clearWindow [n] s
/-- FLUSH (R53). -/
def execFlush (c : Byte) (s : State) : Host.Outcome State Fault Refusal := commandRow .flush [c] s
/-- READ_SOURCE (R122). -/
def execReadSource (n : Byte) (s : State) : Host.Outcome State Fault Refusal := commandRow .readSource [n] s
/-- START (R144). -/
def execStart (s : State) : Host.Outcome State Fault Refusal := commandRow .start [] s
/-- STOP (R145). -/
def execStop (s : State) : Host.Outcome State Fault Refusal := commandRow .stop [] s
/-- READ_EVENTS (R167). -/
def execReadEvents (s : State) : Host.Outcome State Fault Refusal := commandRow .readEvents [] s
/-- SET_ENABLES (R168). -/
def execSetEnables (set : BitVec 16) (s : State) : Host.Outcome State Fault Refusal :=
  commandRow .setEnables (bytes16 set) s
/-- ACK_EVENTS (R169). -/
def execAckEvents (set : BitVec 16) (s : State) : Host.Outcome State Fault Refusal :=
  commandRow .ackEvents (bytes16 set) s
/-- TAKE_INCIDENT (R170). -/
def execTakeIncident (s : State) : Host.Outcome State Fault Refusal := commandRow .takeIncident [] s
/-- UNKNOWN_COMMAND (R175): a byte that names a command does not spell it. -/
def execUnknownCommand (code : Byte) (s : State) : Host.Outcome State Fault Refusal :=
  if decodeCommand code = .unknown code then commandRow (.unknown code) [] s else .next s

end Sys2Proof.Machine
end

