-- ==== Sys2Proof/Machine/Dispatch.lean ====
section
/-! DEFINITION. Which meaning runs each command: one arm per row of the opcode table. -/

namespace Sys2Proof.Machine

def exec (i : Instr) (s : State) : Host.Outcome State Fault Refusal :=
  match i with
  -- Host side and memory port
  | .hostCycleAcceptance addr dir lanes data => Sys2Proof.Machine.execHostCycleAcceptance addr dir lanes data s
  | .refusedWriteCompletion => Sys2Proof.Machine.execRefusedWriteCompletion s
  | .memoryCycleCompletion sd => Sys2Proof.Machine.execMemoryCycleCompletion sd s
  | .publishHoldExpiry => Sys2Proof.Machine.execPublishHoldExpiry s
  -- Links and reception
  | .signalDetected => Sys2Proof.Machine.execSignalDetected s
  | .lossOfSignal => Sys2Proof.Machine.execLossOfSignal s
  | .linkUp => Sys2Proof.Machine.execLinkUp s
  | .alignmentLost => Sys2Proof.Machine.execAlignmentLost s
  | .frameCutOff sym => Sys2Proof.Machine.execFrameCutOff sym s
  | .frameArrival bytes => Sys2Proof.Machine.execFrameArrival bytes s
  -- Output and origination
  | .transmissionCompletion => Sys2Proof.Machine.execTransmissionCompletion s
  | .returnTimerExpiry => Sys2Proof.Machine.execReturnTimerExpiry s
  | .announceTimerExpiry => Sys2Proof.Machine.execAnnounceTimerExpiry s
  | .backoffExpiry => Sys2Proof.Machine.execBackoffExpiry s
  -- Resets
  | .hardReset => Sys2Proof.Machine.execHardReset s
  | .resetRelease straps => Sys2Proof.Machine.execResetRelease straps s
  -- Management port
  | .transactionBegin => Sys2Proof.Machine.execTransactionBegin s
  | .transactionEnd => Sys2Proof.Machine.execTransactionEnd s
  | .ident => Sys2Proof.Machine.execIdent s
  | .status => Sys2Proof.Machine.execStatus s
  | .readParams => Sys2Proof.Machine.execReadParams s
  | .setParams rto phl retryLimit nakBackoff => Sys2Proof.Machine.execSetParams rto phl retryLimit nakBackoff s
  | .softReset => Sys2Proof.Machine.execSoftReset s
  | .readWindow n => Sys2Proof.Machine.execReadWindow n s
  | .writeWindow n kind base sizeCode channel cls combine policy => Sys2Proof.Machine.execWriteWindow n kind base sizeCode channel cls combine policy s
  | .enableWindow n => Sys2Proof.Machine.execEnableWindow n s
  | .disableWindow n => Sys2Proof.Machine.execDisableWindow n s
  | .clearWindow n => Sys2Proof.Machine.execClearWindow n s
  | .flush c => Sys2Proof.Machine.execFlush c s
  | .readSource n => Sys2Proof.Machine.execReadSource n s
  | .start => Sys2Proof.Machine.execStart s
  | .stop => Sys2Proof.Machine.execStop s
  | .readEvents => Sys2Proof.Machine.execReadEvents s
  | .setEnables set => Sys2Proof.Machine.execSetEnables set s
  | .ackEvents set => Sys2Proof.Machine.execAckEvents set s
  | .takeIncident => Sys2Proof.Machine.execTakeIncident s
  | .unknownCommand code => Sys2Proof.Machine.execUnknownCommand code s
  -- Symbols, the timebase and pins
  | .symbolReceived group => Sys2Proof.Machine.execSymbolReceived group s
  | .timebaseAdvance => Sys2Proof.Machine.execTimebaseAdvance s
  | .mclkEdge edge => Sys2Proof.Machine.execMclkEdge edge s
  | .hstbNRelease => Sys2Proof.Machine.execHstbNRelease s

end Sys2Proof.Machine
end

