-- ==== Sys2Proof/Machine/Pins.lean ====
section
/-! DEFINITION. The levels of the output pins that follow from the state (section 11.3, R193); HRDY, HERR and ATTN stand
with their blocks (`State.hrdy`, `State.herr`, `State.attnLow`), HD and MDO are fields of the state. -/

namespace Sys2Proof.Machine

/-- SREQ_N: low from the grant of a memory cycle until its completion. -/
def State.sreqN (s : State) : Bool := s.arb.cycle.isNone

/-- SWE_N: low for a memory write cycle. -/
def State.sweN (s : State) : Bool :=
  match s.arb.cycle with
  | some c => c.dir = .read
  | none => true

/-- SA21..SA0 and SBE3..SBE0 while a memory cycle runs. -/
def State.memoryAddress (s : State) : Option (WordAddr × Lanes) := s.arb.cycle.map fun c => (c.word, c.lanes)

/-- SD31..SD0 as the part drives it: while a memory write cycle is in progress (R193). -/
def State.sdDriven (s : State) : Option Word :=
  match s.arb.cycle with
  | some c => if c.dir = .write then some c.data else none
  | none => none

/-- What the transmitter sends: nothing in QUIET (a static level), the symbols of the transmission in progress, and IDLE
otherwise (R62, R73). -/
def State.transmitted (s : State) : List Symbol :=
  match s.link.outbound, s.out.sending with
  | .quiet, _ => []
  | .running, some f => f.symbols
  | .running, none => [.idle]

end Sys2Proof.Machine
end

