-- ==== Sys2Proof/Safety.lean ====
section
/-! DEFINITION. What a sound state of the block is, one law for each kind of state, in the terms the statements use, and
the states that an accepted request, an apply grant and an executed management command leave. -/

namespace Sys2Proof.Machine

/-! ## Laws of the state -/

/-- Local memory is in its canonical form. -/
abbrev MemoryLaw (s : State) : Prop := s.mem.wf

/-- No queue holds more than its capacity (R38, R71, R74, R80, R125, R166). -/
abbrev CapacityLaw (s : State) : Prop :=
  s.pq.total ≤ 32 ∧ s.pq.low ≤ 28 ∧ s.orig.flight.length ≤ 16 ∧ s.out.fifo.length ≤ 4 ∧ s.out.starvation ≤ 8 ∧
    s.aq.entries.length ≤ 24 ∧ s.attn.queue.length ≤ 8

/-- The ranges have no word in common (R19). -/
abbrev Window.apart (v w : Window) : Prop :=
  v.base.toNat + 2 ^ v.sizeCode.toNat ≤ w.base.toNat ∨ w.base.toNat + 2 ^ w.sizeCode.toNat ≤ v.base.toNat

/-- A written window's base is a multiple of its size; every enabled window is written, no two enabled windows carry one
channel, and no enabled OWNED window overlaps an enabled MIRROR window (R18, R28). -/
abbrev WindowLaw (s : State) : Prop :=
  ∀ i : WinIdx,
    (s.windows[i].written = true → s.windows[i].base.toNat % 2 ^ s.windows[i].sizeCode.toNat = 0) ∧
    (s.windows[i].enabled = true →
      s.windows[i].written = true ∧
      ∀ j : WinIdx, s.windows[j].enabled = true → i ≠ j →
        s.windows[i].channel ≠ s.windows[j].channel ∧
        (s.windows[i].kind = .owned → s.windows[j].kind = .mirror → s.windows[i].apart s.windows[j]))

/-- In OFFLINE the Publish Queue and the In-Flight List are empty; the announce record is present exactly in JOINING,
where the In-Flight List is empty; a write is in PUBLISH_HOLD only in JOINING and ACTIVE (R79, R143, R182). -/
abbrev ModeLaw (s : State) : Prop :=
  (s.node.mode = .offline → s.pq.total = 0 ∧ s.orig.flight = []) ∧
    (s.orig.announce.isSome = true ↔ s.node.mode = .joining) ∧
    (s.node.mode = .joining → s.orig.flight = []) ∧
    (s.host.hold = .publishHold → s.node.mode = .joining ∨ s.node.mode = .active)

/-- The level ISOLATED is held only in OFFLINE, a NORMAL node has both counters below 96 and a DEGRADED one below 240
(R152, R154). -/
abbrev LevelLaw (s : State) : Prop :=
  (s.node.level = .isolated → s.node.mode = .offline) ∧
    (s.node.level = .normal → s.node.lif.toNat < 96 ∧ s.node.rtf.toNat < 96) ∧
    (s.node.level = .degraded → s.node.lif.toNat < 240 ∧ s.node.rtf.toNat < 240)

/-- A cycle record agrees with its class and direction: write data for a write alone, a read always PLAIN, no window for
PLAIN alone, never REFUSED (R1, R5, R12). -/
abbrev CycleRecord.sound (c : CycleRecord) : Prop :=
  (c.data.isSome = true ↔ c.dir = .write) ∧ (c.dir = .read → c.cls = .plain) ∧ (c.window = none ↔ c.cls = .plain) ∧
    c.cls ≠ .refused

/-- The Host Path agrees with itself, with the held request and with the memory port (R1, R14, R44, R132). -/
abbrev HostLaw (s : State) : Prop :=
  (s.host.path = .free ↔ s.host.cycle = none) ∧
    (s.host.path = .holding ↔ s.host.hold ≠ .noHold) ∧
    (∀ c ∈ s.host.cycle, c.sound) ∧
    (s.host.hold = .readHold → ∀ c ∈ s.host.cycle, c.dir = .read) ∧
    (s.host.hold = .publishHold → ∀ c ∈ s.host.cycle, c.dir = .write ∧ c.cls = .publish) ∧
    (s.pq.held.isSome = true ↔ s.host.hold = .publishHold) ∧
    (∀ r ∈ s.pq.held, ∀ c ∈ s.host.cycle, c.window = some r.window) ∧
    (s.host.path = .memory ↔ s.arb.cycle.map MemCycle.grant = some .host) ∧
    (s.host.refusedDelay = true → s.host.path = .free) ∧
    (s.host.herr = true → s.host.path = .free)

/-- In-Flight List entries carry consecutive sequences up to next_seq, the SENT ones stand before the ones that await a
resend, the resend pointer names the first of these, older entries have at least the retries of newer ones and none more
than RETRY_LIMIT, and while the backoff runs every entry awaits a resend (R79, R80, R92). -/
abbrev FlightLaw (s : State) : Prop :=
  let fl := s.orig.flight
  let sent := fl.countP fun f => f.state = .sent
  fl.length ≤ 16 ∧
    (∀ i : Fin fl.length, fl[i].seq = s.orig.nextSeq - BitVec.ofNat 8 (fl.length - i.val)) ∧
    (∀ i : Fin fl.length, fl[i].state = .sent ↔ i.val < sent) ∧
    s.orig.resend = (fl[sent]?).map IflEntry.seq ∧
    fl.Pairwise (fun f g => g.retry.toNat ≤ f.retry.toNat) ∧
    (∀ f ∈ fl, f.retry.toNat ≤ s.node.params.retryLimit.toNat) ∧
    (s.orig.backoff.isSome = true → fl ≠ [] ∧ sent = 0)

/-- Publish Queue entries stand in the list of their class and carry at least one byte, a held request enables a lane;
Apply Queue entries write at least one byte, their next position is present, and only the head is ever WRITING
(R37, R38, R124, R125). -/
abbrev QueueLaw (s : State) : Prop :=
  (∀ p ∈ s.pq.class0, p.cls = 0 ∧ p.mask ≠ 0) ∧ (∀ p ∈ s.pq.class1, p.cls = 1 ∧ p.mask ≠ 0) ∧
    (∀ p ∈ s.pq.class2, p.cls = 2 ∧ p.mask ≠ 0) ∧ (∀ p ∈ s.pq.class3, p.cls = 3 ∧ p.mask ≠ 0) ∧
    (∀ r ∈ s.pq.held, r.lanes ≠ 0) ∧
    (∀ a ∈ s.aq.entries, a.mask ≠ 0 ∧ present a.mask a.next = true) ∧
    (∀ a ∈ s.aq.entries.tail, a.state = .waiting)

/-- The Link Interface's items agree (R58 to R64, R76). -/
abbrev LinkLaw (s : State) : Prop :=
  (s.link.assembly.isSome = true → s.link.inbound = .up) ∧
    (s.link.skip = true ↔ s.link.assembly = none) ∧
    (∀ bs ∈ s.link.assembly, bs.length ≤ 27) ∧
    s.link.validRun ≤ 32 ∧ s.link.invalidRun ≤ 4 ∧
    (s.link.inbound = .aligning → s.link.validRun < 32) ∧
    (s.link.inbound = .up → s.link.validRun = 32 ∧ s.link.invalidRun < 4) ∧
    (s.link.outbound = .quiet ↔ s.resetN = false) ∧
    (s.resetN = false → s.link.inbound = .noSignal)

/-- The current transaction's items agree with the port state, and a pending removal is the head of the Incident Queue
(R170, R173, R176, R177). -/
abbrev PortLaw (s : State) : Prop :=
  let t := s.mgmt.txn
  (t.port = .deselected → t = Transaction.idle) ∧
    (t.port ≠ .deselected → s.mgmt.mselN = false) ∧
    (t.port = .receiving → t.response = none ∧ t.removal = none ∧ t.dropFlag = false ∧ t.position = 0 ∧
      (t.command = none → t.args = []) ∧ ∀ c ∈ t.command, t.args.length < c.argCount) ∧
    (t.port = .responding →
      t.command.isSome = true ∧ t.response.isSome = true ∧ t.position < 8 * (t.response.getD []).length) ∧
    (t.port = .trailing →
      t.command.isSome = true ∧ t.response.isSome = true ∧ t.position = 8 * (t.response.getD []).length) ∧
    t.bitCount < 8 ∧
    (t.removal.isSome = true → t.command = some .takeIncident ∧ t.removal = s.attn.queue.head?) ∧
    (s.mgmt.mdo.isSome = true → s.mgmt.mselN = false)

/-- While RESET_N is low every block holds its hard-reset value, but for the node ID, local memory, the running memory
cycle and a host cycle accepted before the fall, which is in no hold (R16, R35, R56, R76, R77, R100, R123, R140, R158,
R172, R180, R193). -/
abbrev ResetHeld (s : State) : Prop :=
  s.resetN = false →
    s.host.hold = .noHold ∧ s.host.holdMark = 0 ∧ s.host.holdStart = 0 ∧ s.host.refusedDelay = false ∧
    s.host.herr = false ∧ s.windows = Vector.replicate 16 Window.reset ∧ s.pq = PublishQueue.reset ∧
    s.orig = Origination.reset ∧ s.link = LinkInterface.reset ∧ s.out = OutputArbiter.reset ∧
    s.sources = Vector.replicate 16 SeqEntry.reset ∧ s.aq = ApplyQueue.reset ∧
    s.node = { NodeControl.reset with nodeId := s.node.nodeId } ∧ s.attn = Attention.reset ∧
    s.mgmt.txn = Transaction.idle ∧ s.mgmt.mdo = none

/-- HD is driven only after the completion of a read, while the host still holds HSTB_N low for it and no further cycle
has been accepted (R193, 11.3). -/
abbrev DriveLaw (s : State) : Prop :=
  s.host.hd.isSome = true → s.host.path = .free ∧ s.host.presented.isSome = true ∧ s.host.strobeHighSince = false

/-- Neither arbiter stands idle with something to choose: an idle running link has no frame and no offer waiting, a free
memory port no request (R73, R133). -/
abbrev Chosen (s : State) : Prop :=
  (s.out.sending = none → s.link.outbound = .running → s.out.fifo = [] ∧ originationOffer s = none) ∧
    (s.arb.cycle = none → hostRequest s = none ∧ s.aq.entries = [])

/-- Between moments, when every event to come is a moment of its own and nothing is left to choose. -/
abbrev Settled (s : State) : Prop := s.moments = [] ∧ Chosen s

/-- An arbiter is left with something to choose only within a moment (R73, R133). -/
abbrev MomentLaw (s : State) : Prop := s.moments = [] → Chosen s

/-- Every law of the state. -/
abbrev Lawful (s : State) : Prop :=
  MemoryLaw s ∧ CapacityLaw s ∧ WindowLaw s ∧ ModeLaw s ∧ LevelLaw s ∧ HostLaw s ∧ FlightLaw s ∧ QueueLaw s ∧
    LinkLaw s ∧ PortLaw s ∧ ResetHeld s ∧ MomentLaw s ∧ DriveLaw s

/-! ## Terms of the statements -/

/-- A new host cycle is accepted now: RESET_N is high, the path FREE, HSTB_N has been high since the previous cycle was
accepted, and no refused completion waits to be signalled (R2, R14; assumption 6). -/
abbrev Accepting (s : State) : Prop :=
  s.resetN = true ∧ s.host.path = .free ∧ s.host.refusedDelay = false ∧ s.host.strobeHighSince = true

/-- An enabled window whose range, base to base plus 2^(size code) minus one, has the word (R4, R19). -/
abbrev InEnabled (s : State) (i : WinIdx) (w : WordAddr) : Prop :=
  s.windows[i].enabled = true ∧ s.windows[i].base.toNat ≤ w.toNat ∧
    w.toNat < s.windows[i].base.toNat + 2 ^ s.windows[i].sizeCode.toNat

/-- Window i is the matching window of a word: the lowest-index enabled one whose range has it (R4). -/
abbrev MatchedBy (s : State) (w : WordAddr) (i : WinIdx) : Prop :=
  InEnabled s i w ∧ ∀ j : WinIdx, j < i → ¬InEnabled s j w

/-- Window i is the enabled window that carries a channel (R20). -/
abbrev Carries (s : State) (i : WinIdx) (channel : Byte) : Prop :=
  s.windows[i].enabled = true ∧ s.windows[i].channel = channel

/-- Cause n is pending (R161). -/
abbrev Pending (s : State) (n : Nat) : Prop := s.attn.raisedSet.getLsbD (n - 1) = true

/-- The bytes may be those of the frame now arriving in UP: at most 27, continuing the partial frame if there is one. -/
abbrev Arriving (s : State) (bytes : List Byte) : Prop :=
  s.resetN = true ∧ s.link.inbound = .up ∧ bytes.length ≤ 27 ∧ ∀ held ∈ s.link.assembly, held.isPrefixOf bytes = true

/-- The Link Interface after a frame arrival (R63). -/
def State.linkAfterFrame (s : State) : LinkInterface :=
  { s.link with assembly := none, skip := true, invalidRun := 0, lastTransition := s.node.timebase }

/-- LIF has risen by n, stopping at 255, when the mode counts reports, and RTF is unchanged (R149, R151). -/
abbrev LifRaised (n : Nat) (s t : State) : Prop :=
  t.node.lif.toNat = (if s.node.mode = .offline then s.node.lif.toNat else min 255 (s.node.lif.toNat + n)) ∧
    t.node.rtf = s.node.rtf

/-- LIF has fallen by one, stopping at 0, when the mode counts reports (R149, R151). -/
abbrev LifLowered (s t : State) : Prop :=
  t.node.lif.toNat = if s.node.mode = .offline then s.node.lif.toNat else s.node.lif.toNat - 1

/-- The level read by steps 6 and 7 of an arrival, after its good-frame report: a DEGRADED node whose LIF comes to 63 or
less with RTF at 63 or less is NORMAL again (R103, R152). -/
abbrev ObjectsAfterGoodFrame (s : State) : Prop :=
  s.node.level = .normal ∨ (s.node.lif.toNat ≤ 64 ∧ s.node.rtf.toNat ≤ 63)

/-- The transit drop of an arrival has isolated the node and demoted a write in PUBLISH_HOLD, whose request stands beside
the Apply Queue's at a port last granted to it: the host is chosen first (R48, R133 row 2, R154). -/
abbrev HostChosenFirst (s t : State) : Prop :=
  t.node.level = .isolated ∧ s.host.hold = .publishHold ∧ s.host.cycle.isSome = true ∧ s.arb.lastGrant = .apply

/-- The Apply Queue has one entry more, at the tail and under the next acceptance number, made from the span of an UPDATE
in window i, and the entries before it stand. A FREE memory port grants it in the same event, which makes it WRITING,
unless the host is chosen first; a busy one is left as it is (R114, R125, R129, R133). -/
abbrev EntryMade (i : WinIdx) (span : SpanOffset) (mask : SpanMask) (words : List Word) (s t : State) : Prop :=
  t.aq.nextAcc = s.aq.nextAcc + 1 ∧ t.aq.entries.length = s.aq.entries.length + 1 ∧
    t.aq.entries.dropLast = s.aq.entries ∧
    (s.arb.cycle.isSome = true → t.arb = s.arb) ∧
    (s.arb.cycle = none → t.arb.cycle.map MemCycle.grant = some (if HostChosenFirst s t then .host else .apply)) ∧
    ∀ a ∈ t.aq.entries.getLast?,
      a.acc = s.aq.nextAcc ∧ a.base.toNat = s.windows[i].base.toNat + 4 * span.toNat ∧ a.mask = mask ∧
      a.window = i ∧ (∀ k : Position, present mask k = false → a.words[k] = 0) ∧
      (presentPositions mask).map (fun k => a.words[k]) = words ∧ (presentPositions mask).head? = some a.next ∧
      a.state = if s.arb.cycle = none ∧ ¬HostChosenFirst s t then .writing else .waiting

/-- What the lookup of an UPDATE that is taken makes of it: consumed with no enabled window on its channel, OWNER_CONFLICT
on an OWNED window, RANGE_ERROR outside its MIRROR window, else one new entry, or none at 24 entries (R111 to R115). -/
abbrev LookedUp (channel : Byte) (span : SpanOffset) (mask : SpanMask) (words : List Word) (s t : State) : Prop :=
  ((∀ i : WinIdx, ¬Carries s i channel) → t.aq = s.aq) ∧
    ∀ i : WinIdx, Carries s i channel →
      (s.windows[i].kind = .owned → t.aq = s.aq ∧ Pending t 8) ∧
      (s.windows[i].kind = .mirror → 2 ^ s.windows[i].sizeCode.toNat ≤ 4 * span.toNat → t.aq = s.aq ∧ Pending t 9) ∧
      (s.windows[i].kind = .mirror → 4 * span.toNat < 2 ^ s.windows[i].sizeCode.toNat →
        (s.aq.entries.length < 24 → EntryMade i span mask words s t) ∧ (24 ≤ s.aq.entries.length → t.aq = s.aq))

/-- The window records after an arrival are those given, configuration, STALE and update count; DIVERGED stands as well,
unless the transit drop of the forwarding, at a Transit FIFO of four frames, isolated the node (R72, R149, R154). -/
abbrev WindowsAre (record : WinIdx → Window) (s t : State) : Prop :=
  ∀ i : WinIdx,
    { t.windows[i] with diverged := s.windows[i].diverged } = { record i with diverged := s.windows[i].diverged } ∧
    (s.out.fifo.length < 4 ∨ t.node.level ≠ .isolated → t.windows[i].diverged = s.windows[i].diverged)

/-- The order of the causes of one event: by cause number, and by window index within a cause (R163). -/
abbrev InOrderOfCauses (o p : Occurrence) : Prop :=
  o.cause < p.cause ∨ (o.cause = p.cause ∧ ∀ v ∈ o.window, ∀ w ∈ p.window, v ≤ w)

/-- What an offer puts on the line when it is chosen (R75, R83, R84). -/
def Offer.frameIn (o : Offer) (s : State) : Frame :=
  match o with
  | .announce r => r.frame s.node.nodeId
  | .resend f => f.frame s.node.nodeId
  | .fresh p => (p.depart s.orig.nextSeq s.node.timebase).frame s.node.nodeId

/-- The blocks that a host-side or memory event leaves alone. -/
abbrev RingUnchanged (s t : State) : Prop :=
  t.orig = s.orig ∧ t.link = s.link ∧ t.out = s.out ∧ t.sources = s.sources ∧ t.node = s.node

/-- The cycle that was in a hold has been kept, with the class given, and its memory request made: it is granted at once
when the port is FREE (R6, R13, R133). -/
abbrev ReleasedAs (cls : HostClass) (s t : State) : Prop :=
  t.host.cycle = s.host.cycle.map (fun c => { c with cls := cls }) ∧ t.host.hold = .noHold ∧
    t.host.path = (if s.arb.cycle = none then .memory else .requesting) ∧
    (s.arb.cycle = none → t.arb.cycle.map MemCycle.grant = some .host) ∧ (s.arb.cycle.isSome = true → t.arb = s.arb)

/-- A give-up that added n to RTF: the In-Flight List is discarded with DIVERGED requests and DELIVERY_FAILED, next_seq is
kept; ACTIVE becomes JOINING with a new announce record and the Publish Queue kept, short of isolation; DRAINING becomes
OFFLINE with DRAIN_DONE and the Publish Queue discarded likewise (R93, R94, R148). -/
abbrev GivenUp (n : Nat) (s t : State) : Prop :=
  t.orig.flight = [] ∧ t.orig.resend = none ∧ t.orig.backoff = none ∧ t.orig.nextSeq = s.orig.nextSeq ∧
    Pending t 5 ∧ t.node.rtf.toNat = min 255 (s.node.rtf.toNat + n) ∧ t.sources = s.sources ∧ t.aq = s.aq ∧
    t.mem = s.mem ∧
    (∀ e ∈ s.orig.flight, s.windows[e.window].kind = .owned → t.windows[e.window].diverged = true ∧
      (s.windows[e.window].diverged = false → Pending t 12)) ∧
    (s.node.mode = .active → s.node.rtf.toNat + n < 240 → t.node.mode = .joining ∧ t.pq = s.pq ∧
      ∃ r, t.orig.announce = some r ∧ r.startSeq = s.orig.nextSeq ∧ r.retry = 0 ∧
        r.state = (if s.out.sending.isSome = true ∨ s.link.outbound = .quiet then .awaitingSend else .sent)) ∧
    (s.node.mode = .draining → t.node.mode = .offline ∧ t.pq.total = 0 ∧ Pending t 2 ∧ t.orig.announce = none ∧
      ∀ p ∈ s.pq.entries, s.windows[p.window].kind = .owned → t.windows[p.window].diverged = true)

/-! ## States that commands leave -/

/-- A host cycle's request is made; a free memory port grants it at once and the Host Path is in MEMORY, a busy one
leaves it in REQUESTING (R7, R13, R133). -/
def State.afterRequest (s : State) (r : CycleRecord) : State :=
  match s.arb.cycle with
  | some _ => s.withHost { s.host with path := .requesting, cycle := some r, hold := .noHold, herr := false }
  | none =>
    (s.withHost { s.host with path := .memory, cycle := some r, hold := .noHold, herr := false }).withArb
      { cycle := some { grant := .host, word := r.word, dir := r.dir, lanes := r.lanes, data := r.data.getD 0 }
        lastGrant := .host }

/-- The memory port after a completion with no host request: the head of the Apply Queue is granted its next word and is
WRITING, or, with no entry, the port is FREE (R128, R129, R133). -/
def State.afterApplyGrant (s : State) : State :=
  match s.aq.entries with
  | [] => s.withArb { s.arb with cycle := none }
  | a :: rest =>
    (s.withArb { cycle := some { grant := .apply, word := a.base + BitVec.ofNat 22 a.next.val, dir := .write
                                 lanes := a.mask.extractLsb' (4 * a.next.val) 4, data := a.words[a.next] }
                 lastGrant := .apply }).withAq
      { s.aq with entries := { a with state := .writing } :: rest }

/-- A cause is raised for a window flag only when the flag was clear (R21). -/
def State.divergedAt (s : State) (i : WinIdx) : State :=
  if s.windows[i].kind = .owned ∧ s.windows[i].diverged = false then
    appendIncident (s.withWindows (s.windows.set i { s.windows[i] with diverged := true })) (.divergedMarked i)
  else s

/-- A STALE request on a window, with its cause when the flag was clear (R21). -/
def State.staleAt (s : State) (i : WinIdx) : State :=
  if s.windows[i].kind = .mirror ∧ s.windows[i].stale = false then
    appendIncident (s.withWindows (s.windows.set i { s.windows[i] with stale := true })) (.staleMarked i)
  else s

/-- A window record set in the table. -/
def State.setWindow (s : State) (i : WinIdx) (w : Window) : State := s.withWindows (s.windows.set i w)

/-- The bits so far begin these bytes and the next edges of MCLK may complete them, with RESET_N high (R175, R176). -/
abbrev Completing (s : State) (bytes : List Byte) : Prop :=
  s.resetN = true ∧ s.mgmt.txn.canComplete bytes = true

/-- The port after the execution of a command: RESPONDING with its response at position 0 (R176, R177). -/
def State.answered (s : State) (c : Command) (args response : List Byte) : State :=
  s.withMgmt { s.mgmt with
    mclk := true
    txn := { s.mgmt.txn with port := .responding, bitCount := 0, shift := 0, command := some c, args := args
                             response := some response, position := 0 } }

/-- The bytes of a management command, its command byte first; none for the other commands (R175, R189). -/
def spelled : Instr → List Byte
  | .ident => [0x01]
  | .status => [0x02]
  | .readParams => [0x03]
  | .setParams rto phl retryLimit nakBackoff =>
    0x04 :: (bytes16 rto ++ bytes16 phl ++ [retryLimit] ++ bytes16 nakBackoff)
  | .softReset => [0x0A]
  | .readWindow n => [0x10, n]
  | .writeWindow n kind base sizeCode channel cls combine policy =>
    [0x11, n, kind] ++ bytes24 base ++ [sizeCode, channel, cls, combine, policy]
  | .enableWindow n => [0x12, n]
  | .disableWindow n => [0x13, n]
  | .clearWindow n => [0x14, n]
  | .flush c => [0x20, c]
  | .readSource n => [0x28, n]
  | .start => [0x30]
  | .stop => [0x31]
  | .readEvents => [0x40]
  | .setEnables set => 0x41 :: bytes16 set
  | .ackEvents set => 0x42 :: bytes16 set
  | .takeIncident => [0x43]
  | .unknownCommand code => [code]
  | _ => []

/-- The step from s to t executed a management command: the port went from RECEIVING to RESPONDING (R176). -/
abbrev Executes (s t : State) (c : Command) : Prop :=
  s.mgmt.txn.port = .receiving ∧ t.mgmt.txn.port = .responding ∧ t.mgmt.txn.command = some c

/-- What the Output Arbiter holds after a frame has been handed to it for forwarding by a node without an offer of its
own waiting for an idle link (R71, R72, R73, R74). -/
def State.outAfterForward (s : State) (f : Frame) : OutputArbiter :=
  if s.out.sending.isSome = true ∨ s.link.outbound = .quiet then
    if s.out.fifo.length < 4 then { s.out with fifo := s.out.fifo ++ [f] } else s.out
  else { fifo := [], sending := some f, starvation := 0 }

end Sys2Proof.Machine
end

