-- ==== Sys2Proof/Certificates/Slice0/Obligations.lean ====
section
/-! DEFINITION. The statements: what a step is, what each command does to the state, the laws that every step keeps,
and the rules of the whole machine. A premise that is a law (`Settled`, `HostLaw`, `ModeLaw`, `LevelLaw`, `FlightLaw`,
`LinkLaw`, `WindowLaw`, `PortLaw`, `QueueLaw`, `CapacityLaw`, `MemoryLaw`, `ResetHeld`) is an invariant of the block,
stated here as one. -/

open Sys2Proof Sys2Proof.Machine

/-! ## Steps -/

/-- A step runs the command at the front of the queue on the state with the queue's rest; with no command waiting the
block idles; no command faults or is refused (assumption 11). -/
def Obligations.StepRunsTheFrontCommand : Prop :=
  (∀ (c : Instr) (rest : List Instr) (s : State), s.pending = c :: rest → step s = exec c (s.withPending rest)) ∧
    (∀ s : State, s.pending = [] → step s = .next s) ∧
    ∀ (c : Instr) (s : State), ∃ t, exec c s = .next t

/-! ## The Host Path (chapter 1) -/

/-- An accepted write with no byte enables, or with no matching window, is PLAIN: it posts its memory request at once,
which a free port grants; nothing else changes (R5 rows 2 and 3, R7, R13). -/
def Obligations.PlainWriteRequestsMemory : Prop :=
  ∀ (addr : ByteAddr) (lanes : Lanes) (data : Word) (s : State), Settled s → Accepting s →
    (lanes = 0 ∨ ∀ i : WinIdx, ¬InEnabled s i (addr.extractLsb' 2 22)) →
    exec (.hostCycleAcceptance addr .write lanes data) s = .next
      ((s.withHost
        { s.host with
          presented := some { addr := addr, dir := .write, lanes := lanes, data := data }
          strobeHighSince := false }).afterRequest
        { word := addr.extractLsb' 2 22, dir := .write, lanes := lanes, data := some data, cls := .plain
          window := none })

/-- An accepted read is held in READ_HOLD under the acceptance number of the youngest Apply Queue entry that covers its
word, whatever lanes it enables; with no covering entry it posts its memory request (R7, R8). -/
def Obligations.ReadIsHeldForPendingUpdates : Prop :=
  ∀ (addr : ByteAddr) (lanes : Lanes) (data : Word) (s : State), Settled s → Accepting s →
    let presented := s.withHost
      { s.host with
        presented := some { addr := addr, dir := .read, lanes := lanes, data := data }
        strobeHighSince := false }
    let record : CycleRecord :=
      { word := addr.extractLsb' 2 22, dir := .read, lanes := lanes, data := none, cls := .plain, window := none }
    ((∀ a ∈ s.aq.entries, a.covers (addr.extractLsb' 2 22) = false) →
      exec (.hostCycleAcceptance addr .read lanes data) s = .next (presented.afterRequest record)) ∧
    ∀ i : Fin s.aq.entries.length, s.aq.entries[i].covers (addr.extractLsb' 2 22) = true →
      (∀ j : Fin s.aq.entries.length, i < j → s.aq.entries[j].covers (addr.extractLsb' 2 22) = false) →
      exec (.hostCycleAcceptance addr .read lanes data) s = .next
        (presented.withHost
          { presented.host with path := .holding, cycle := some record, hold := .readHold
                                holdMark := s.aq.entries[i].acc, holdStart := s.node.timebase, herr := false })

/-- An accepted write into an OWNED window in OFFLINE or DRAINING is UNPUBLISHED and asks for DIVERGED; one into a
MIRROR window with policy ACCEPT is LOCAL and asks for STALE; the flag's cause is raised when the flag was clear; nothing
is captured or counted (R5 rows 5 and 6, R10, R11, R21). -/
def Obligations.UnpublishedAndLocalWritesMarkTheirWindow : Prop :=
  ∀ (addr : ByteAddr) (lanes : Lanes) (data : Word) (i : WinIdx) (s : State), Settled s → Accepting s →
    lanes ≠ 0 → MatchedBy s (addr.extractLsb' 2 22) i →
    let presented := s.withHost
      { s.host with
        presented := some { addr := addr, dir := .write, lanes := lanes, data := data }
        strobeHighSince := false }
    let record (cls : HostClass) : CycleRecord :=
      { word := addr.extractLsb' 2 22, dir := .write, lanes := lanes, data := some data, cls := cls, window := some i }
    (s.windows[i].kind = .owned → s.node.mode = .offline ∨ s.node.mode = .draining →
      exec (.hostCycleAcceptance addr .write lanes data) s = .next
        ((presented.afterRequest (record .unpublished)).divergedAt i)) ∧
    (s.windows[i].kind = .mirror → s.windows[i].policy = .accept →
      exec (.hostCycleAcceptance addr .write lanes data) s = .next
        ((presented.afterRequest (record .localWrite)).staleAt i))

/-- An accepted write into a MIRROR window with policy REFUSE completes at its acceptance with no memory cycle: the path
is FREE again, the data is discarded, REFUSED_WRITE is raised with the word and the window, and the signalling is still
to come (R5 row 7, R12, R14; when the next cycle is new is assumption 6). -/
def Obligations.RefusedWriteCompletesAtAcceptance : Prop :=
  ∀ (addr : ByteAddr) (lanes : Lanes) (data : Word) (i : WinIdx) (s : State), Settled s → Accepting s →
    lanes ≠ 0 → MatchedBy s (addr.extractLsb' 2 22) i →
    s.windows[i].kind = .mirror → s.windows[i].policy = .refuse →
    exec (.hostCycleAcceptance addr .write lanes data) s = .next
      (appendIncident
        (s.withHost
          { s.host with path := .free, cycle := none, hold := .noHold, refusedDelay := true, herr := false
                        presented := some { addr := addr, dir := .write, lanes := lanes, data := data }
                        strobeHighSince := false })
        (.refusedWrite i (addr.extractLsb' 2 22)))

/-- After the delay HRDY is asserted together with HERR; a new cycle the host presents is then accepted as if it were
presented at that moment (R2, R14; the count of completions is the model's own, assumption 13). -/
def Obligations.RefusedWriteIsSignalledWithHerr : Prop :=
  ∀ s : State, Settled s → s.resetN = true → s.host.path = .free → s.host.refusedDelay = true →
    let signalled := s.withHost
      { s.host with refusedDelay := false, herr := true, completions := s.host.completions + 1 }
    (s.host.presented = none ∨ s.host.strobeHighSince = false →
      exec .refusedWriteCompletion s = .next signalled ∧ signalled.hrdy = true ∧ signalled.herr = true) ∧
    (s.host.strobeHighSince = true → ∀ c ∈ s.host.presented,
      exec .refusedWriteCompletion s = exec (.hostCycleAcceptance c.addr c.dir c.lanes c.data) signalled)

/-- A PUBLISH write is merged into the tail of its class list when the tail is of the same window, channel and span and
combining is on, and otherwise becomes a new entry at the tail when the reservation check passes; its window's update
count rises by one and its memory request is posted. No entry departs in the same event when a transmission is in
progress, in JOINING, with a full In-Flight List or with a resend due (R5 row 4, R9, R39 to R42, R82). -/
def Obligations.PublishWriteIsCaptured : Prop :=
  ∀ (addr : ByteAddr) (lanes : Lanes) (data : Word) (i : WinIdx) (s : State), Settled s → Accepting s →
    lanes ≠ 0 → MatchedBy s (addr.extractLsb' 2 22) i →
    s.windows[i].kind = .owned → s.node.mode = .joining ∨ s.node.mode = .active →
    (s.out.sending.isSome = true ∨ s.node.mode = .joining ∨ 16 ≤ s.orig.flight.length ∨ s.orig.resend.isSome = true) →
    let win := s.windows[i]
    let span : SpanOffset := BitVec.ofNat 18 (((addr.extractLsb' 2 22).toNat - win.base.toNat) / 4)
    let pos : Position := Fin.ofNat 4 (addr.extractLsb' 2 22).toNat
    let bits : SpanMask := lanes.setWidth 16 <<< (4 * pos.val)
    let list := s.pq.classList win.cls
    let combines (t : PqEntry) : Prop :=
      win.combine = true ∧ t.window = i ∧ t.channel = win.channel ∧ t.span = span
    let counted :=
      ((s.withHost
        { s.host with
          presented := some { addr := addr, dir := .write, lanes := lanes, data := data }
          strobeHighSince := false }).afterRequest
          { word := addr.extractLsb' 2 22, dir := .write, lanes := lanes, data := some data, cls := .publish
            window := some i }).setWindow i { win with updates := win.updates + 1 }
    (∀ t ∈ list.getLast?, combines t →
      exec (.hostCycleAcceptance addr .write lanes data) s = .next
        (counted.withPq (s.pq.setClassList win.cls (list.dropLast ++
          [{ t with words := t.words.set pos (mergeLanes t.words[pos] data lanes), mask := t.mask ||| bits }])))) ∧
    ((∀ t ∈ list.getLast?, ¬combines t) → s.pq.total < 32 → win.cls = 3 ∨ s.pq.low < 28 →
      exec (.hostCycleAcceptance addr .write lanes data) s = .next
        (counted.withPq (s.pq.setClassList win.cls (list ++
          [{ channel := win.channel, span := span, words := zeroWords.set pos (mergeLanes 0 data lanes), mask := bits
             cls := win.cls, window := i }]))))

/-- On an ACTIVE node whose outbound link is idle, with room in the In-Flight List and no resend due, a captured write
departs in the same event: it is the tail of the In-Flight List with the next sequence number, its UPDATE is on the line,
and the Publish Queue is as before (R51, R73, R81; the sequence of 11.5, step 2). -/
def Obligations.PublishWriteDepartsOnAnIdleLink : Prop :=
  ∀ (addr : ByteAddr) (lanes : Lanes) (data : Word) (i : WinIdx) (s : State), Settled s → Accepting s →
    lanes ≠ 0 → MatchedBy s (addr.extractLsb' 2 22) i →
    s.windows[i].kind = .owned → s.node.mode = .active →
    s.out.sending = none → s.link.outbound = .running → s.orig.flight.length < 16 → s.orig.resend = none →
    let win := s.windows[i]
    let pos : Position := Fin.ofNat 4 (addr.extractLsb' 2 22).toNat
    let sent : IflEntry :=
      { seq := s.orig.nextSeq, retry := 0, state := .sent, departure := s.node.timebase, channel := win.channel
        span := BitVec.ofNat 18 (((addr.extractLsb' 2 22).toNat - win.base.toNat) / 4)
        mask := lanes.setWidth 16 <<< (4 * pos.val), words := zeroWords.set pos (mergeLanes 0 data lanes), window := i }
    exec (.hostCycleAcceptance addr .write lanes data) s = .next
      (((((s.withHost
        { s.host with
          presented := some { addr := addr, dir := .write, lanes := lanes, data := data }
          strobeHighSince := false }).afterRequest
          { word := addr.extractLsb' 2 22, dir := .write, lanes := lanes, data := some data, cls := .publish
            window := some i }).setWindow i { win with updates := win.updates + 1 }).withOrig
        { s.orig with flight := s.orig.flight ++ [sent], nextSeq := s.orig.nextSeq + 1 }).withOut
        { fifo := [], sending := some (sent.frame s.node.nodeId), starvation := 0 })

/-- A PUBLISH write that cannot combine and finds no room is held in PUBLISH_HOLD with its capture request kept; with PHL
0 it is demoted to UNPUBLISHED at once, with PUBLISH_OVERRUN and its DIVERGED request (R9, R41, R44, R46). -/
def Obligations.PublishWriteWithoutRoomIsHeld : Prop :=
  ∀ (addr : ByteAddr) (lanes : Lanes) (data : Word) (i : WinIdx) (s : State), Settled s → Accepting s →
    lanes ≠ 0 → MatchedBy s (addr.extractLsb' 2 22) i →
    s.windows[i].kind = .owned → s.node.mode = .joining ∨ s.node.mode = .active →
    let win := s.windows[i]
    let w := addr.extractLsb' 2 22
    let request : CaptureRequest :=
      { channel := win.channel, cls := win.cls, combine := win.combine, window := i
        span := BitVec.ofNat 18 ((w.toNat - win.base.toNat) / 4), pos := Fin.ofNat 4 w.toNat, lanes := lanes
        data := data }
    let record (cls : HostClass) : CycleRecord :=
      { word := w, dir := .write, lanes := lanes, data := some data, cls := cls, window := some i }
    let presented := s.withHost
      { s.host with
        presented := some { addr := addr, dir := .write, lanes := lanes, data := data }
        strobeHighSince := false }
    (∀ t ∈ (s.pq.classList win.cls).getLast?,
      ¬(win.combine = true ∧ t.window = i ∧ t.channel = win.channel ∧ t.span = request.span)) →
    ¬(s.pq.total < 32 ∧ (win.cls = 3 ∨ s.pq.low < 28)) →
    (s.node.params.phl ≠ 0 →
      exec (.hostCycleAcceptance addr .write lanes data) s = .next
        ((presented.withHost
          { presented.host with path := .holding, cycle := some (record .publish), hold := .publishHold
                                holdStart := s.node.timebase, herr := false }).withPq
          { s.pq with held := some request })) ∧
    (s.node.params.phl = 0 →
      exec (.hostCycleAcceptance addr .write lanes data) s = .next
        ((appendIncident
          (((presented.withHost { presented.host with holdStart := s.node.timebase }).afterRequest
            (record .unpublished)).withPq { s.pq with held := none })
          (.publishOverrun i win.cls w)).divergedAt i))

/-- When PHL has run out the held write is demoted to UNPUBLISHED and requests memory, its held request is discarded,
PUBLISH_OVERRUN is raised with window, class and word, and DIVERGED is asked for on the window (R46). -/
def Obligations.PublishHoldExpiryDemotesTheWrite : Prop :=
  ∀ (s : State), Settled s → HostLaw s → s.resetN = true → s.host.hold = .publishHold →
    s.node.params.phl.toNat ≤ (s.node.timebase - s.host.holdStart).toNat →
    ∀ c ∈ s.host.cycle, ∀ r ∈ s.pq.held,
      exec .publishHoldExpiry s = .next
        ((appendIncident ((s.afterRequest { c with cls := .unpublished }).withPq { s.pq with held := none })
          (.publishOverrun r.window r.cls c.word)).divergedAt r.window)

/-- HSTB_N rises: no cycle is presented, and the part's drive of read data ends. That the next presented cycle is new
from then on, also when HSTB_N rises before the cycle in progress is complete, is the model's choice of assumption 6
(R2, 11.3). -/
def Obligations.StrobeReleaseMakesTheNextCycleNew : Prop :=
  ∀ s : State, exec .hstbNRelease s = .next
    (s.withHost { s.host with presented := none, strobeHighSince := true, hd := none })

/-! ## The memory port (chapter 7) -/

/-- The memory write cycle of a host write: the enabled lanes of the word take the data's bytes and every other byte of
memory keeps its value, the cycle completes with HRDY and without HERR, and the port goes to the Apply Queue; a new cycle
the host is still presenting is accepted then, as if it were presented at that moment; with a further event of the same
moment to come the port is left FREE for the choice after it (R2, R3, R14, R129, R132, R133; when a cycle is new and the
count of completions are assumptions 6 and 13, the events of one moment are assumption 25). -/
def Obligations.HostWriteCycleCompletes : Prop :=
  ∀ (sd : Word) (w : WordAddr) (lanes : Lanes) (data : Word) (s : State), Settled s → MemoryLaw s →
    s.arb.cycle = some { grant := .host, word := w, dir := .write, lanes := lanes, data := data } →
    let mem := s.mem.writeWord w lanes data
    let completed := ((s.withArb { s.arb with cycle := none }).withMem mem).withHost
      { s.host with path := .free, cycle := none, hold := .noHold, herr := false, hd := none
                    completions := s.host.completions + 1 }
    (s.host.presented = none ∨ s.host.strobeHighSince = false ∨ s.resetN = false →
      exec (.memoryCycleCompletion sd) s = .next completed.afterApplyGrant) ∧
    (s.resetN = true → s.host.strobeHighSince = true → ∀ c ∈ s.host.presented,
      exec (.memoryCycleCompletion sd) s =
        exec (.hostCycleAcceptance c.addr c.dir c.lanes c.data) completed) ∧
    (s.host.presented = none ∨ s.host.strobeHighSince = false ∨ s.resetN = false →
      ∀ (k : Nat) (later : List Nat), exec (.memoryCycleCompletion sd) (s.withMoments ((k + 1) :: later)) =
        .next (completed.withMoments (k :: later))) ∧
    (∀ lane : Fin 4, mem.readByte (4 * w.toNat + lane.val) =
      if lanes.getLsbD lane.val = true then data.extractLsb' (8 * lane.val) 8
      else s.mem.readByte (4 * w.toNat + lane.val)) ∧
    ∀ a : Nat, a < 4 * w.toNat ∨ 4 * w.toNat + 4 ≤ a → mem.readByte a = s.mem.readByte a

/-- The memory read cycle of a host read: it returns memory's bytes on the enabled lanes and what memory drives on the
others, which HD carries while the host still holds HSTB_N low; memory is unchanged, the path is FREE, and the port goes
to the Apply Queue; a new cycle the host is still presenting is accepted then, as if it were presented at that moment;
with a further event of the same moment to come the port is left FREE for the choice after it (R2, R7, R14, R133, R193;
the lanes not enabled are assumption 3, when a cycle is new assumption 6, the model's own count and trace assumption 13,
the events of one moment assumption 25). -/
def Obligations.HostReadCycleReturnsMemory : Prop :=
  ∀ (sd : Word) (w : WordAddr) (lanes : Lanes) (data : Word) (s : State), Settled s →
    s.arb.cycle = some { grant := .host, word := w, dir := .read, lanes := lanes, data := data } →
    let d := mergeLanes sd (s.mem.readWord w) lanes
    let completed := (s.withArb { s.arb with cycle := none }).withHost
      { s.host with path := .free, cycle := none, hold := .noHold, herr := false
                    hd := if s.host.presented.isSome = true ∧ s.host.strobeHighSince = false then some d else none
                    returned := some d, completions := s.host.completions + 1 }
    (s.host.presented = none ∨ s.host.strobeHighSince = false ∨ s.resetN = false →
      exec (.memoryCycleCompletion sd) s = .next completed.afterApplyGrant) ∧
    (s.resetN = true → s.host.strobeHighSince = true → ∀ c ∈ s.host.presented,
      exec (.memoryCycleCompletion sd) s =
        exec (.hostCycleAcceptance c.addr c.dir c.lanes c.data) completed) ∧
    (s.host.presented = none ∨ s.host.strobeHighSince = false ∨ s.resetN = false →
      ∀ (k : Nat) (later : List Nat), exec (.memoryCycleCompletion sd) (s.withMoments ((k + 1) :: later)) =
        .next (completed.withMoments (k :: later))) ∧
    ∀ lane : Fin 4, d.extractLsb' (8 * lane.val) 8 =
      if lanes.getLsbD lane.val = true then s.mem.readByte (4 * w.toNat + lane.val)
      else sd.extractLsb' (8 * lane.val) 8

/-- A word cycle of the WRITING head completes: the enabled lanes are written; with a present position above, the entry
goes on to the lowest such one and is still the head; with none it is removed, its window's update count rises by one,
and a read held with no entry at or before its mark left is released and, the last grant being APPLY, served next. When
DISABLE_WINDOW or SOFT_RESET voids the last other entry at or before the mark at the same moment, and the completion is
taken first, the completion releases nothing, and the voiding then releases the read, which is served next (R129, R130,
R131, R133, R135, R136; the events of one moment are assumption 25). -/
def Obligations.ApplyWordCycleCompletes : Prop :=
  (∀ (sd : Word) (m : MemCycle) (a : AqEntry) (rest : List AqEntry) (s : State), Settled s → MemoryLaw s → HostLaw s →
      s.arb.cycle = some m → m.grant = .apply → m.dir = .write → s.arb.lastGrant = .apply →
      s.aq.entries = a :: rest → a.state = .writing →
      ∃ t, exec (.memoryCycleCompletion sd) s = .next t ∧ RingUnchanged s t ∧ t.pq = s.pq ∧ t.attn = s.attn ∧
        t.mgmt = s.mgmt ∧
        (∀ lane : Fin 4, t.mem.readByte (4 * m.word.toNat + lane.val) =
          if m.lanes.getLsbD lane.val = true then m.data.extractLsb' (8 * lane.val) 8
          else s.mem.readByte (4 * m.word.toNat + lane.val)) ∧
        (∀ x : Nat, x < 4 * m.word.toNat ∨ 4 * m.word.toNat + 4 ≤ x → t.mem.readByte x = s.mem.readByte x) ∧
        (∀ k : Position, a.next < k → present a.mask k = true →
          (∀ j : Position, a.next < j → j < k → present a.mask j = false) →
          t.aq.entries = { a with next := k } :: rest ∧ t.windows = s.windows ∧ t.host.hold = s.host.hold) ∧
        ((∀ k : Position, a.next < k → present a.mask k = false) →
          t.windows = s.windows.set a.window { s.windows[a.window] with updates := s.windows[a.window].updates + 1 } ∧
          t.aq.entries = (if t.arb.cycle.map MemCycle.grant = some .apply then markHeadWriting rest else rest) ∧
          (s.host.hold = .readHold →
            ((∃ b ∈ rest, (s.host.holdMark - b.acc).toNat < 32768) → t.host = s.host) ∧
            ((∀ b ∈ rest, ¬(s.host.holdMark - b.acc).toNat < 32768) →
              t.host = { s.host with path := .memory, hold := .noHold } ∧
              t.arb.cycle.map MemCycle.grant = some .host)))) ∧
  ∀ (sd : Word) (m : MemCycle) (a : AqEntry) (rest : List AqEntry) (s : State), Settled s → HostLaw s → QueueLaw s →
    s.arb.cycle = some m → m.grant = .apply → m.dir = .write → s.arb.lastGrant = .apply →
    s.aq.entries = a :: rest → a.state = .writing → (∀ k : Position, a.next < k → present a.mask k = false) →
    s.host.hold = .readHold →
    (∃ b ∈ rest, (s.host.holdMark - b.acc).toNat < 32768) →
    ∃ u, exec (.memoryCycleCompletion sd) (s.withMoments [1]) = .next u ∧ u.host = s.host ∧ u.arb.cycle = none ∧
      u.aq.entries = rest ∧
      let served (t : State) : Prop :=
        t.host = { s.host with path := .memory, hold := .noHold } ∧ t.arb.cycle.map MemCycle.grant = some .host ∧
          t.mem = s.mem.writeWord m.word m.lanes m.data
      (∀ (n : Byte) (i : WinIdx), Completing s [0x13, n] → n.toNat = i.val → s.windows[i].enabled = true →
        s.windows[i].kind = .mirror → (∀ b ∈ rest, (s.host.holdMark - b.acc).toNat < 32768 → b.window = i) →
        ∃ t, exec (.disableWindow n) u = .next t ∧ served t ∧ t.aq.entries = rest.filter (fun b => b.window ≠ i) ∧
          t.windows[i].enabled = false ∧ t.windows[a.window].updates = s.windows[a.window].updates + 1) ∧
      (Completing s [0x0A] →
        ∃ t, exec .softReset u = .next t ∧ served t ∧ t.aq.entries = [] ∧ ∀ i : WinIdx, t.windows[i].updates = 0)

/-- A free memory port chooses by the rows of R133: the Apply Queue during a READ_HOLD, the requester not granted last
when both ask, the only one that asks otherwise, and no one when no one asks. Both arbiters choose at the end of a moment:
a command either brings no choice about, or it is an event with an effect and the choices after it, and when a further
event of its moment is to come it has its effect alone, so that the last event's choices find every request, frame and
offer of the moment present (R73, R133; that the events of one moment are taken in the order of the queue and counted in
`moments` is the model's, assumption 25). -/
def Obligations.MemoryArbiterChoosesByItsRows : Prop :=
  (∀ (c : Instr) (s t : State), s.moments = [] → exec c s = .next t →
    (∀ moments : List Nat, exec c (s.withMoments moments) = .next (t.withMoments moments)) ∨
    ∃ u : State, t = choices u ∧ ∀ (k : Nat) (later : List Nat),
      exec c (s.withMoments ((k + 1) :: later)) = .next (u.withMoments (k :: later)) ∧
      exec c (s.withMoments (0 :: later)) = .next (t.withMoments later)) ∧
  ∀ s : State, s.arb.cycle = none →
    let granted := (arbitrate s).arb.cycle.map MemCycle.grant
    (s.host.hold = .readHold → s.aq.entries ≠ [] → granted = some .apply) ∧
    (s.host.hold ≠ .readHold → (hostRequest s).isSome = true → s.aq.entries ≠ [] → s.arb.lastGrant = .apply →
      granted = some .host) ∧
    (s.host.hold ≠ .readHold → (hostRequest s).isSome = true → s.aq.entries ≠ [] → s.arb.lastGrant = .host →
      granted = some .apply) ∧
    ((hostRequest s).isSome = true → s.aq.entries = [] → granted = some .host) ∧
    (hostRequest s = none → s.aq.entries ≠ [] → granted = some .apply) ∧
    (hostRequest s = none → s.aq.entries = [] → arbitrate s = s)

/-- Acceptance numbers are compared modulo 65,536, and an entry covers a word of its span of which its mask has a byte,
whether it is WAITING or WRITING and whatever it has written (R126). -/
def Obligations.AcceptanceOrderAndCoverage : Prop :=
  (∀ a m : AccNo, atOrBefore a m = true ↔ (m.toNat + 65536 - a.toNat) % 65536 < 32768) ∧
  ∀ (a : AqEntry) (w : WordAddr),
    (a.covers w = true ↔ ∃ k : Position, w.toNat = a.base.toNat + k.val ∧
      (a.mask.getLsbD (4 * k.val) = true ∨ a.mask.getLsbD (4 * k.val + 1) = true ∨
        a.mask.getLsbD (4 * k.val + 2) = true ∨ a.mask.getLsbD (4 * k.val + 3) = true))

/-! ## The inbound link (chapter 4) -/

/-- A transition stamps the last transition time and takes NO_SIGNAL to ALIGNING with valid run 0; 2 µs without one is a
loss of signal, which takes ALIGNING or UP to NO_SIGNAL, raises LINK_CHANGE out of UP and cuts off a partial frame first,
with its report (R58, R59, R61, R64; the runs outside their states are assumption 18). -/
def Obligations.SignalIsFoundAndLost : Prop :=
  (∀ s : State, s.resetN = true → s.link.inbound = .noSignal →
    exec .signalDetected s = .next
      (s.withLink { s.link with inbound := .aligning, validRun := 0, lastTransition := s.node.timebase })) ∧
  (∀ s : State, s.resetN = true → s.link.inbound ≠ .noSignal →
    exec .signalDetected s = .next (s.withLink { s.link with lastTransition := s.node.timebase })) ∧
  (∀ s : State, Settled s → s.resetN = true → s.link.inbound = .aligning → s.link.assembly = none →
    2 ≤ (s.node.timebase - s.link.lastTransition).toNat →
    exec .lossOfSignal s = .next (s.withLink { s.link with inbound := .noSignal, skip := true })) ∧
  (∀ s : State, Settled s → s.resetN = true → s.link.inbound = .up → s.link.assembly = none →
    2 ≤ (s.node.timebase - s.link.lastTransition).toNat →
    exec .lossOfSignal s = .next
      (appendIncident (s.withLink { s.link with inbound := .noSignal, skip := true }) .linkChange)) ∧
  (∀ s : State, Settled s → s.resetN = true → s.link.inbound = .up → s.link.assembly.isSome = true →
    2 ≤ (s.node.timebase - s.link.lastTransition).toNat →
    ∃ t, exec .lossOfSignal s = .next t ∧ t.link = { s.link with inbound := .noSignal, skip := true, assembly := none } ∧
      LifRaised 6 s t ∧ Pending t 4 ∧ t.out = s.out ∧ t.sources = s.sources ∧ t.mem = s.mem)

/-- The thirty-second valid symbol in a row takes ALIGNING to UP; the fourth invalid symbol in a row takes UP to ALIGNING
with valid run 0, its first cutting off a partial frame; each change raises LINK_CHANGE (R60, R61, R64, R163; that the rows
stand for the whole run, and the last transition time and the invalid run after it, are assumptions 8, 17 and 18). -/
def Obligations.LinkComesUpAndLosesAlignment : Prop :=
  (∀ s : State, Settled s → s.resetN = true → s.link.inbound = .aligning →
    exec .linkUp s = .next
      (appendIncident
        (s.withLink { s.link with inbound := .up, validRun := 32, invalidRun := 0, lastTransition := s.node.timebase })
        .linkChange)) ∧
  (∀ s : State, Settled s → s.resetN = true → s.link.inbound = .up → s.link.assembly = none →
    exec .alignmentLost s = .next
      (appendIncident (s.withLink { s.link with inbound := .aligning, validRun := 0, invalidRun := 4, skip := true })
        .linkChange)) ∧
  (∀ s : State, Settled s → s.resetN = true → s.link.inbound = .up → s.link.assembly.isSome = true →
    ∃ t, exec .alignmentLost s = .next t ∧
      t.link = { s.link with inbound := .aligning, validRun := 0, invalidRun := 4, skip := true, assembly := none } ∧
      LifRaised 6 s t ∧ Pending t 4 ∧ t.out = s.out ∧ t.sources = s.sources ∧ t.mem = s.mem)

/-- A partial frame in UP is cut off by START, IDLE, a data symbol past 27 bytes or an invalid symbol: it is discarded and
reported with the bad-frame weight; START opens a new partial frame at once, the others set the skip flag; nothing is
handed to the Reception Unit or forwarded (R63, R64, R149). -/
def Obligations.FrameIsCutOff : Prop :=
  ∀ (sym : Symbol) (s : State), sym ≠ .endFrame → Settled s → s.resetN = true → s.link.inbound = .up →
    s.link.assembly.isSome = true →
    ∃ t, exec (.frameCutOff sym) s = .next t ∧
      t.link.assembly = (if sym = .startFrame then some [] else none) ∧
      t.link.skip = (if sym = .startFrame then false else true) ∧
      LifRaised 6 s t ∧ t.out = s.out ∧ t.sources = s.sources ∧ t.mem = s.mem ∧ t.aq = s.aq ∧
      (sym ≠ .invalid → t.link.inbound = .up ∧ t.link.invalidRun = 0) ∧
      (sym = .invalid → s.link.invalidRun < 3 → t.link.inbound = .up ∧ t.link.invalidRun = s.link.invalidRun + 1) ∧
      (sym = .invalid → 3 ≤ s.link.invalidRun → t.link.inbound = .aligning ∧ t.link.validRun = 0 ∧ Pending t 4)

/-- A received group outside a completing one: in ALIGNING a valid symbol adds to the valid run, an invalid group sets it
to 0 and moves the boundary one bit; in UP START opens a partial frame, a data symbol is appended to it, and between
frames data, END and IDLE are ignored and an invalid symbol only adds to the invalid run; in NO_SIGNAL nothing is
received (R59, R60, R61, R63, R188; which groups stamp the last transition time is assumption 17). -/
def Obligations.SymbolsAreReceived : Prop :=
  (∀ (g : BitVec 10) (s : State), s.link.inbound = .noSignal → exec (.symbolReceived g) s = .next s) ∧
  (∀ (sym : Symbol) (g : BitVec 10) (s : State), codeGroup sym = some g → Settled s → s.resetN = true →
    s.link.inbound = .aligning → s.link.validRun < 31 →
    exec (.symbolReceived g) s = .next
      (s.withLink { s.link with validRun := s.link.validRun + 1, lastTransition := s.node.timebase })) ∧
  (∀ (g : BitVec 10) (s : State), classifyGroup g = .invalid → Settled s → s.resetN = true →
    s.link.inbound = .aligning →
    exec (.symbolReceived g) s = .next
      (s.withLink { s.link with validRun := 0, groupBoundary := s.link.groupBoundary + 1
                                lastTransition := if g = 0 ∨ g = 0x3FF#10 then s.link.lastTransition
                                                  else s.node.timebase })) ∧
  (∀ (sym : Symbol) (g : BitVec 10) (s : State), codeGroup sym = some g → Settled s → s.resetN = true →
    s.link.inbound = .up → s.link.assembly = none →
    exec (.symbolReceived g) s = .next
      (s.withLink (if sym = .startFrame then
          { s.link with assembly := some [], skip := false, invalidRun := 0, lastTransition := s.node.timebase }
        else { s.link with invalidRun := 0, lastTransition := s.node.timebase }))) ∧
  (∀ (v : Byte) (bs : List Byte) (s : State), Settled s → s.resetN = true → s.link.inbound = .up →
    s.link.assembly = some bs → bs.length < 27 →
    exec (.symbolReceived (0b10#2 ++ v)) s = .next
      (s.withLink { s.link with assembly := some (bs ++ [v]), invalidRun := 0, lastTransition := s.node.timebase })) ∧
  (∀ (g : BitVec 10) (s : State), classifyGroup g = .invalid → Settled s → s.resetN = true →
    s.link.inbound = .up → s.link.assembly = none → s.link.invalidRun < 3 →
    exec (.symbolReceived g) s = .next
      (s.withLink { s.link with invalidRun := s.link.invalidRun + 1
                                lastTransition := if g = 0 ∨ g = 0x3FF#10 then s.link.lastTransition
                                                  else s.node.timebase }))

/-- The rows that stand for a run of symbols are their last symbol: END of the partial frame is its arrival, a symbol
that cuts it off, an invalid one included, is its cut-off, the valid symbol after a run of 31 is LINK_UP, and the invalid
symbol after a run of 3 between frames is ALIGNMENT_LOST (the model's choice of assumption 8, and of assumption 17 for
the invalid groups that stamp the last transition time; R60, R61, R63, R64). -/
def Obligations.RunRowsAreTheirLastSymbol : Prop :=
  (∀ (bs : List Byte) (s : State), s.resetN = true → s.link.inbound = .up → s.link.assembly = some bs →
    bs.length ≤ 27 → exec (.symbolReceived (0b01#2 ++ 0xF0#8)) s = exec (.frameArrival bs) s) ∧
  (∀ (sym : Symbol) (g : BitVec 10) (bs : List Byte) (s : State), codeGroup sym = some g → s.resetN = true →
    s.link.inbound = .up → s.link.assembly = some bs →
    (sym = .startFrame ∨ sym = .idle ∨ 27 ≤ bs.length) → sym ≠ .endFrame →
    exec (.symbolReceived g) s = exec (.frameCutOff sym) s) ∧
  (∀ (sym : Symbol) (g : BitVec 10) (s : State), codeGroup sym = some g → s.resetN = true →
    s.link.inbound = .aligning → s.link.validRun = 31 → exec (.symbolReceived g) s = exec .linkUp s) ∧
  ∀ (g : BitVec 10) (s : State), classifyGroup g = .invalid → s.resetN = true → s.link.inbound = .up →
    let seen := if g = 0 ∨ g = 0x3FF#10 then s
      else s.withLink { s.link with lastTransition := s.node.timebase }
    (s.link.assembly.isSome = true → exec (.symbolReceived g) s = exec (.frameCutOff .invalid) seen) ∧
    (s.link.assembly = none → s.link.invalidRun = 3 → exec (.symbolReceived g) s = exec .alignmentLost seen)

/-! ## Frame arrivals (chapters 5 and 6) -/

/-- A bad frame is discarded: LIF rises by the bad-frame weight while the node runs, nothing is stripped, processed or
forwarded, and while LIF stays below 96 at NORMAL, or in OFFLINE, nothing else changes (R69, R102, R103, R149). -/
def Obligations.BadFrameIsDiscarded : Prop :=
  ∀ (bytes : List Byte) (s : State), parseFrame bytes = none → Settled s → Arriving s bytes →
    (∃ t, exec (.frameArrival bytes) s = .next t ∧ LifRaised 6 s t ∧ t.link = s.linkAfterFrame ∧ t.out = s.out ∧
      t.sources = s.sources ∧ t.aq = s.aq ∧ t.mem = s.mem ∧ t.orig.nextSeq = s.orig.nextSeq) ∧
    (s.node.mode = .offline → exec (.frameArrival bytes) s = .next (s.withLink s.linkAfterFrame)) ∧
    (s.node.mode ≠ .offline → s.node.level = .normal → s.node.lif.toNat + 6 < 96 → s.node.rtf.toNat < 96 →
      exec (.frameArrival bytes) s = .next
        ((s.withLink s.linkAfterFrame).withNode { s.node with lif := s.node.lif + 6 }))

/-- A frame of another source with hops 15 is removed as an orphan and only counted; in OFFLINE every other frame of
another source is forwarded with one hop more and nothing else changed, or dropped with TRANSIT_DROP at a full Transit
FIFO. A frame forwarded to an idle link at the moment of a soft reset, and taken first, joins the Transit FIFO and is
removed by the soft reset; the soft reset taken first, it is sent (R70, R72, R73, R77, R105, R120; the events of one moment
are assumption 25). -/
def Obligations.OrphansAndOfflineForwarding : Prop :=
  ∀ (bytes : List Byte) (f : Frame) (s : State), parseFrame bytes = some f → Settled s → ModeLaw s →
    LinkLaw s → Arriving s bytes → f.source ≠ s.node.nodeId → s.node.mode = .offline →
    (f.hops = 15 →
      exec (.frameArrival bytes) s = .next
        (s.withLink { s.linkAfterFrame with
          orphans := if s.link.orphans = 65535 then 65535 else s.link.orphans + 1 })) ∧
    (f.hops ≠ 15 → ¬(s.out.sending.isSome = true ∧ 4 ≤ s.out.fifo.length) →
      exec (.frameArrival bytes) s = .next
        ((s.withLink s.linkAfterFrame).withOut (s.outAfterForward { f with hops := f.hops + 1 }))) ∧
    (f.hops ≠ 15 → s.out.sending.isSome = true → 4 ≤ s.out.fifo.length →
      exec (.frameArrival bytes) s = .next
        (appendIncident (s.withLink s.linkAfterFrame) (.transitDrop f.source f.seq))) ∧
    (f.hops ≠ 15 → s.out.sending = none → Completing s [0x0A] →
      (∃ u, exec (.frameArrival bytes) (s.withMoments [1]) = .next u ∧
        u.out = { s.out with fifo := [{ f with hops := f.hops + 1 }] } ∧
        ∃ t, exec .softReset u = .next t ∧ t.out = { fifo := [], sending := none, starvation := 0 }) ∧
      ∃ u, exec .softReset (s.withMoments [1]) = .next u ∧ ∃ t, exec (.frameArrival bytes) u = .next t ∧
        t.out = { fifo := [], sending := some { f with hops := f.hops + 1 }, starvation := 0 })

/-- In a running node an orphan is removed and counted; nothing else changes but LIF, by its good-frame report, and a
level that this restores, with its LEVEL_CHANGE; an ANNOUNCE re-bases its source's entry to the start sequence, its
counters kept, and is forwarded with one hop more and NAK as it arrived (R70, R103, R108, R120, R152). -/
def Obligations.AnnounceRebasesItsSource : Prop :=
  ∀ (bytes : List Byte) (f : Frame) (s : State), parseFrame bytes = some f → Settled s → ModeLaw s → LevelLaw s →
    Arriving s bytes → f.source ≠ s.node.nodeId → s.node.mode ≠ .offline →
    (f.hops = 15 → ∃ t, exec (.frameArrival bytes) s = .next t ∧ LifLowered s t ∧ t.sources = s.sources ∧
      t.out = s.out ∧ t.aq = s.aq ∧ t.windows = s.windows ∧ t.mem = s.mem ∧ t.orig = s.orig ∧ t.pq = s.pq ∧
      t.host = s.host ∧ t.arb = s.arb ∧ t.resetN = s.resetN ∧
      { t.node with lif := s.node.lif, level := s.node.level } = s.node ∧
      (t.node.level = s.node.level → t.attn = s.attn ∧ t.mgmt = s.mgmt) ∧
      (t.node.level ≠ s.node.level → s.node.level = .degraded ∧ t.node.level = .normal ∧
        t.attn = (appendIncident s .levelChange).attn ∧ t.mgmt = (appendIncident s .levelChange).mgmt) ∧
      t.link = { s.linkAfterFrame with
        orphans := if s.link.orphans = 65535 then 65535 else s.link.orphans + 1 }) ∧
    (f.hops ≠ 15 → f.body = .announce → ∃ t, exec (.frameArrival bytes) s = .next t ∧
      t.sources = s.sources.set f.source { s.sources[f.source] with known := true, expected := f.seq } ∧
      t.out = s.outAfterForward { f with hops := f.hops + 1 } ∧ t.link = s.linkAfterFrame ∧ t.aq = s.aq ∧
      t.mem = s.mem ∧ t.orig.nextSeq = s.orig.nextSeq ∧
      (s.out.sending.isSome = true → 4 ≤ s.out.fifo.length → Pending t 13))

/-- An UPDATE that is in order, or adopted from an UNKNOWN source with SOURCE_ADOPTED, is looked up by its channel: with
no enabled window it is consumed, on an OWNED window it raises OWNER_CONFLICT, outside its MIRROR window RANGE_ERROR, and
with room in the Apply Queue it makes one entry at the tail with the next acceptance number, WRITING in the same event at a
FREE memory port, unless its transit drop isolates the node and the write this demotes from PUBLISH_HOLD is granted first.
In each of these it is taken and forwarded with NAK as it arrived, and no window's configuration, flag or update count
changes, but for the DIVERGED requests of an isolation by its transit drop
(R48, R72, R107, R109, R111 to R114, R119, R120, R129, R133, R154). -/
def Obligations.UpdateInOrderIsTaken : Prop :=
  ∀ (bytes : List Byte) (f : Frame) (ch : Byte) (span : SpanOffset) (mask : SpanMask) (words : List Word) (s : State),
    parseFrame bytes = some f → f.body = .update ch span mask words → f.hops ≠ 15 → Settled s → ModeLaw s →
    LevelLaw s → WindowLaw s → Arriving s bytes → f.source ≠ s.node.nodeId → s.node.mode ≠ .offline →
    (s.sources[f.source].known = true → s.sources[f.source].expected = f.seq) →
    ((∀ i : WinIdx, ¬Carries s i ch) ∨ s.aq.entries.length < 24 ∨
      ∃ i : WinIdx, Carries s i ch ∧
        (s.windows[i].kind = .owned ∨ 2 ^ s.windows[i].sizeCode.toNat ≤ 4 * span.toNat)) →
    ∃ t, exec (.frameArrival bytes) s = .next t ∧
      t.sources = s.sources.set f.source
        { s.sources[f.source] with known := true, expected := f.seq + 1, taken := s.sources[f.source].taken + 1 } ∧
      t.out = s.outAfterForward { f with hops := f.hops + 1 } ∧ t.link = s.linkAfterFrame ∧ t.mem = s.mem ∧
      (s.sources[f.source].known = false → Pending t 10) ∧ LookedUp ch span mask words s t ∧
      WindowsAre (fun i => s.windows[i]) s t

/-- An UPDATE in order, or adopted from an UNKNOWN source with SOURCE_ADOPTED, for a MIRROR window that finds 24 entries
in the Apply Queue is not taken and goes on with NAK set at NORMAL; at DEGRADED it is dropped and taken, STALE is asked
for on its window alone, and it goes on with NAK as it arrived. No other flag, configuration or update count of a window
changes, but for the DIVERGED requests of an isolation by its transit drop. The level is that after the arrival's own
good-frame report (R72, R103, R107, R109, R115, R119, R154). -/
def Obligations.UpdateWithoutRoomIsObjectedToOrDropped : Prop :=
  ∀ (bytes : List Byte) (f : Frame) (ch : Byte) (span : SpanOffset) (mask : SpanMask) (words : List Word) (i : WinIdx)
    (s : State), parseFrame bytes = some f → f.body = .update ch span mask words → f.hops ≠ 15 → Settled s →
    ModeLaw s → LevelLaw s → WindowLaw s → Arriving s bytes → f.source ≠ s.node.nodeId → s.node.mode ≠ .offline →
    (s.sources[f.source].known = true → s.sources[f.source].expected = f.seq) → Carries s i ch →
    s.windows[i].kind = .mirror → 4 * span.toNat < 2 ^ s.windows[i].sizeCode.toNat → s.aq.entries.length = 24 →
    (ObjectsAfterGoodFrame s → ∃ t, exec (.frameArrival bytes) s = .next t ∧ t.aq = s.aq ∧
      (s.sources[f.source].known = true → t.sources = s.sources) ∧
      (s.sources[f.source].known = false → Pending t 10 ∧
        t.sources = s.sources.set f.source { s.sources[f.source] with known := true, expected := f.seq }) ∧
      t.mem = s.mem ∧ t.out = s.outAfterForward { f with hops := f.hops + 1, nak := true } ∧
      WindowsAre (fun j => s.windows[j]) s t) ∧
    (¬ObjectsAfterGoodFrame s → ∃ t, exec (.frameArrival bytes) s = .next t ∧ t.aq = s.aq ∧ t.mem = s.mem ∧
      t.sources = s.sources.set f.source
        { s.sources[f.source] with known := true, expected := f.seq + 1, taken := s.sources[f.source].taken + 1 } ∧
      (s.sources[f.source].known = false → Pending t 10) ∧
      WindowsAre (fun j => if j = i then { s.windows[j] with stale := true } else s.windows[j]) s t ∧
      (s.windows[i].stale = false → Pending t 11) ∧ t.out = s.outAfterForward { f with hops := f.hops + 1 })

/-- An UPDATE 1 to 127 ahead of what is expected counts a gap: at NORMAL it is not taken and goes on with NAK set; at
DEGRADED every enabled MIRROR window, and no other, is STALE, the entry is re-based to the frame, which is looked up as an
UPDATE in order is (consumed, OWNER_CONFLICT, RANGE_ERROR, one new Apply Queue entry, granted as in UpdateInOrderIsTaken,
or none at 24 entries), is taken and goes on with NAK as it arrived. One 128 to 255 ahead counts a duplicate, is not taken and goes on as it arrived. No other
flag, configuration or update count of a window changes, but for the DIVERGED requests of an isolation by its transit
drop (R48, R72, R110 to R119, R129, R133, R154). -/
def Obligations.GapsAndDuplicates : Prop :=
  ∀ (bytes : List Byte) (f : Frame) (ch : Byte) (span : SpanOffset) (mask : SpanMask) (words : List Word) (s : State),
    parseFrame bytes = some f → f.body = .update ch span mask words → f.hops ≠ 15 → Settled s → ModeLaw s →
    LevelLaw s → WindowLaw s → Arriving s bytes → f.source ≠ s.node.nodeId → s.node.mode ≠ .offline →
    s.sources[f.source].known = true →
    let x := s.sources[f.source]
    let d := (f.seq.toNat + 256 - x.expected.toNat) % 256
    let gaps := if x.gaps = 65535 then 65535 else x.gaps + 1
    let duplicates := if x.duplicates = 65535 then 65535 else x.duplicates + 1
    let skipped (i : WinIdx) : Window :=
      if s.windows[i].enabled = true ∧ s.windows[i].kind = .mirror then { s.windows[i] with stale := true }
      else s.windows[i]
    (1 ≤ d → d ≤ 127 → ObjectsAfterGoodFrame s → ∃ t, exec (.frameArrival bytes) s = .next t ∧ t.aq = s.aq ∧
      t.mem = s.mem ∧ t.sources = s.sources.set f.source { x with gaps := gaps } ∧
      t.out = s.outAfterForward { f with hops := f.hops + 1, nak := true } ∧ WindowsAre (fun i => s.windows[i]) s t) ∧
    (1 ≤ d → d ≤ 127 → ¬ObjectsAfterGoodFrame s → ∃ t, exec (.frameArrival bytes) s = .next t ∧ t.mem = s.mem ∧
      t.sources = s.sources.set f.source { x with gaps := gaps, expected := f.seq + 1, taken := x.taken + 1 } ∧
      LookedUp ch span mask words s t ∧ WindowsAre skipped s t ∧
      (∀ i : WinIdx, s.windows[i].enabled = true → s.windows[i].kind = .mirror → s.windows[i].stale = false →
        Pending t 11) ∧
      t.out = s.outAfterForward { f with hops := f.hops + 1 }) ∧
    (128 ≤ d → ∃ t, exec (.frameArrival bytes) s = .next t ∧ t.aq = s.aq ∧ t.mem = s.mem ∧
      t.sources = s.sources.set f.source { x with duplicates := duplicates } ∧
      t.out = s.outAfterForward { f with hops := f.hops + 1 } ∧ WindowsAre (fun i => s.windows[i]) s t)

/-- An own UPDATE that returns with no In-Flight List entry raises UNMATCHED_RETURN, and an own frame that returns with an
attempt that is not current, for an entry that awaits its resend, or as an ANNOUNCE that does not complete the join, adds
to the stale return count; neither is forwarded or changes the list, RTF, the Sequence Table or the Apply Queue
(R85, R86, R97, R104). -/
def Obligations.UnmatchedAndStaleReturns : Prop :=
  ∀ (bytes : List Byte) (f : Frame) (s : State), parseFrame bytes = some f → Settled s → LevelLaw s → FlightLaw s →
    Arriving s bytes → f.source = s.node.nodeId →
    let kept (t : State) : Prop :=
      LifLowered s t ∧ t.node.rtf = s.node.rtf ∧ t.sources = s.sources ∧ t.aq = s.aq ∧ t.out = s.out ∧
        t.link = s.linkAfterFrame ∧ t.pq = s.pq ∧ t.windows = s.windows ∧ t.mem = s.mem ∧ t.node.mode = s.node.mode
    let staleCount := if s.orig.staleReturns = 65535 then 65535 else s.orig.staleReturns + 1
    (f.body ≠ .announce → (∀ x ∈ s.orig.flight, x.seq ≠ f.seq) →
      ∃ t, exec (.frameArrival bytes) s = .next t ∧ kept t ∧ t.orig = s.orig ∧ Pending t 14) ∧
    (f.body ≠ .announce →
      (∃ x ∈ s.orig.flight, x.seq = f.seq ∧ (f.attempt.toNat ≠ x.retry.toNat % 4 ∨ x.state = .awaitingResend)) →
      ∃ t, exec (.frameArrival bytes) s = .next t ∧ kept t ∧ t.orig = { s.orig with staleReturns := staleCount }) ∧
    (f.body = .announce →
      (∀ r ∈ s.orig.announce,
        ¬(r.state = .sent ∧ f.seq = r.startSeq ∧ f.attempt.toNat = r.retry.toNat % 4)) →
      ∃ t, exec (.frameArrival bytes) s = .next t ∧ kept t ∧ t.orig = { s.orig with staleReturns := staleCount })

/-- The clean return of the SENT head retires it and lowers RTF by one; in DRAINING with both queues then empty the drain
ends in OFFLINE with DRAIN_DONE; the frame is not forwarded and makes no change to the Sequence Table (R87, R104, R146;
that the report is counted before the drain ends is assumption 15). -/
def Obligations.CleanReturnRetiresTheHead : Prop :=
  ∀ (bytes : List Byte) (f : Frame) (h : IflEntry) (rest : List IflEntry) (s : State),
    parseFrame bytes = some f → Settled s → ModeLaw s → LevelLaw s → FlightLaw s → Arriving s bytes →
    f.source = s.node.nodeId → f.body ≠ .announce → s.orig.flight = h :: rest → h.state = .sent → f.seq = h.seq →
    f.attempt.toNat = h.retry.toNat % 4 → f.nak = false →
    ∃ t, exec (.frameArrival bytes) s = .next t ∧ LifLowered s t ∧ t.node.rtf.toNat = s.node.rtf.toNat - 1 ∧
      t.sources = s.sources ∧ t.aq = s.aq ∧ t.mem = s.mem ∧ rest.isPrefixOf t.orig.flight = true ∧
      (s.out.sending.isSome = true →
        t.out = s.out ∧ t.pq = s.pq ∧ t.orig = { s.orig with flight := rest } ∧ t.windows = s.windows) ∧
      (s.node.mode = .draining → s.pq.total = 0 → rest = [] → t.node.mode = .offline ∧ Pending t 2) ∧
      (¬(s.node.mode = .draining ∧ s.pq.total = 0 ∧ rest = []) → t.node.mode = s.node.mode)

/-- A current return with NAK 1 of any SENT entry adds one to RTF, one with NAK 0 of a SENT entry that is not the head adds
six; unless the head's retry count is at RETRY_LIMIT or the node is isolated by it, every entry then has one retry more
and, with a backoff or a transmission in progress, awaits its resend from the head on; the backoff runs after an objection
alone (R88, R89, R91, R92). -/
def Obligations.ObjectedAndOutOfOrderReturnsGoBack : Prop :=
  ∀ (bytes : List Byte) (f : Frame) (x h : IflEntry) (s : State), parseFrame bytes = some f → Settled s → ModeLaw s →
    LevelLaw s → FlightLaw s → Arriving s bytes → f.source = s.node.nodeId → f.body ≠ .announce →
    x ∈ s.orig.flight → x.state = .sent → f.seq = x.seq → f.attempt.toNat = x.retry.toNat % 4 →
    s.orig.flight.head? = some h → (f.nak = true ∨ x.seq ≠ h.seq) → h.retry ≠ s.node.params.retryLimit →
    s.node.rtf.toNat + 6 < 240 →
    let objected := f.nak = true ∧ s.node.params.nakBackoff ≠ 0
    ∃ t, exec (.frameArrival bytes) s = .next t ∧ LifLowered s t ∧
      t.node.rtf.toNat = s.node.rtf.toNat + (if f.nak = true then 1 else 6) ∧ t.node.mode = s.node.mode ∧
      t.sources = s.sources ∧ t.aq = s.aq ∧ t.pq = s.pq ∧ t.mem = s.mem ∧ t.windows = s.windows ∧
      t.orig.flight.map IflEntry.retry = s.orig.flight.map (fun e => e.retry + 1) ∧
      t.orig.flight.map IflEntry.seq = s.orig.flight.map IflEntry.seq ∧
      (objected ∨ s.out.sending.isSome = true →
        t.orig = { s.orig with
          flight := s.orig.flight.map fun e => { e with retry := e.retry + 1, state := .awaitingResend }
          resend := some h.seq
          backoff := if objected then some s.node.timebase else none } ∧ t.out = s.out)

/-- The return of the SENT ANNOUNCE with the record's start sequence and attempt completes the join: the record is
absent, the mode ACTIVE, JOIN_DONE raised and RTF unchanged; with a transmission in progress nothing else of the
Origination Unit and the queues changes (R97, R148). -/
def Obligations.JoinCompletes : Prop :=
  ∀ (bytes : List Byte) (f : Frame) (r : AnnounceRecord) (s : State), parseFrame bytes = some f → Settled s →
    ModeLaw s → LevelLaw s → Arriving s bytes → f.source = s.node.nodeId → f.body = .announce →
    s.orig.announce = some r → r.state = .sent → f.seq = r.startSeq → f.attempt.toNat = r.retry.toNat % 4 →
    ∃ t, exec (.frameArrival bytes) s = .next t ∧ t.node.mode = .active ∧ t.orig.announce = none ∧ Pending t 1 ∧
      t.node.rtf = s.node.rtf ∧ LifLowered s t ∧ t.sources = s.sources ∧ t.aq = s.aq ∧ t.mem = s.mem ∧
      (s.out.sending.isSome = true →
        t.orig = { s.orig with announce := none } ∧ t.pq = s.pq ∧ t.out = s.out ∧ t.windows = s.windows)

/-! ## The outbound link and the Origination Unit (chapters 4 and 5) -/

/-- An idle running link makes the Output Arbiter choose by the rows of R74 between the transit head and the origination
offer, whichever of them, or both, are present, and keeps the starvation count as the row says; the completion of a
transmission makes the link idle and brings that choice about (R73, R74). -/
def Obligations.OutputArbiterChoosesByItsRows : Prop :=
  (∀ s : State, s.moments = [] → s.out.sending.isSome = true →
    exec .transmissionCompletion s = .next (choices (s.withOut { s.out with sending := none }))) ∧
  ∀ s : State, s.out.sending = none → s.link.outbound = .running →
    let t := choices s
    (∀ o ∈ originationOffer s, s.out.fifo = [] →
      t.out = { fifo := [], sending := some (o.frameIn s), starvation := 0 }) ∧
    (originationOffer s = none → s.out.fifo = [] → t.out = s.out ∧ t.orig = s.orig ∧ t.pq = s.pq) ∧
    (∀ o ∈ originationOffer s, s.out.starvation = 8 → s.out.fifo.length = 1 ∨ s.out.fifo.length = 2 →
      t.out = { fifo := s.out.fifo, sending := some (o.frameIn s), starvation := 0 }) ∧
    ((originationOffer s).isSome = true → s.out.fifo ≠ [] → s.out.starvation ≠ 8 ∨ 3 ≤ s.out.fifo.length →
      t.out = { fifo := s.out.fifo.tail, sending := s.out.fifo.head?, starvation := min 8 (s.out.starvation + 1) } ∧
      t.orig = s.orig ∧ t.pq = s.pq) ∧
    (originationOffer s = none → s.out.fifo ≠ [] →
      t.out = { fifo := s.out.fifo.tail, sending := s.out.fifo.head?, starvation := 0 } ∧
      t.orig = s.orig ∧ t.pq = s.pq)

/-- When an idle link takes the offer: in JOINING the ANNOUNCE that awaits its sending; else, with no backoff running, the
entry at the resend pointer; else, in ACTIVE or DRAINING with room, the head of the highest class. The ANNOUNCE and the
resend become SENT with a new departure time, the pointer moves on, and a new entry joins the tail of the In-Flight List
with sequence next_seq and leaves its class list; where that makes room for the held request of a PUBLISH_HOLD, the write
is captured as a new entry and makes its memory request, and otherwise it stays held (R45, R50, R51, R81 to R84). -/
def Obligations.ChosenOffersAreCommitted : Prop :=
  ∀ s : State, s.moments = [] → s.out.sending.isSome = true → s.link.outbound = .running → s.out.fifo = [] → HostLaw s →
    ModeLaw s → FlightLaw s → QueueLaw s →
    (∀ r ∈ s.orig.announce, r.state = .awaitingSend → ∃ t, exec .transmissionCompletion s = .next t ∧
      t.orig = { s.orig with announce := some { r with state := .sent, departure := s.node.timebase } } ∧
      t.out.sending = some
        { source := s.node.nodeId, seq := r.startSeq, attempt := r.retry.extractLsb' 0 2, nak := false, hops := 0
          body := .announce } ∧ t.pq = s.pq ∧ t.windows = s.windows) ∧
    (∀ i : Fin s.orig.flight.length, s.orig.resend = some s.orig.flight[i].seq → s.orig.backoff = none →
      ∃ t, exec .transmissionCompletion s = .next t ∧
        t.orig = { s.orig with
          flight := s.orig.flight.set i.val { s.orig.flight[i] with state := .sent, departure := s.node.timebase }
          resend := (s.orig.flight[i.val + 1]?).map IflEntry.seq } ∧
        t.out.sending = some
          { source := s.node.nodeId, seq := s.orig.flight[i].seq
            attempt := s.orig.flight[i].retry.extractLsb' 0 2, nak := false, hops := 0
            body := .update s.orig.flight[i].channel s.orig.flight[i].span s.orig.flight[i].mask
              (presentWords s.orig.flight[i].mask s.orig.flight[i].words) } ∧ t.pq = s.pq ∧ t.windows = s.windows) ∧
    (∀ c : PrioClass, s.orig.resend = none → s.node.mode = .active ∨ s.node.mode = .draining →
      s.orig.flight.length < 16 →
      (∀ c' : PrioClass, c < c' → s.pq.classList c' = []) → ∀ p ∈ (s.pq.classList c).head?,
      let left := s.pq.setClassList c (s.pq.classList c).tail
      ∃ t, exec .transmissionCompletion s = .next t ∧
        t.orig = { s.orig with
          nextSeq := s.orig.nextSeq + 1
          flight := s.orig.flight ++
            [{ seq := s.orig.nextSeq, retry := 0, state := .sent, departure := s.node.timebase, channel := p.channel
               span := p.span, mask := p.mask, words := p.words, window := p.window }] } ∧
        t.out.sending = some
          { source := s.node.nodeId, seq := s.orig.nextSeq, attempt := 0, nak := false, hops := 0
            body := .update p.channel p.span p.mask (presentWords p.mask p.words) } ∧
        (s.host.hold ≠ .publishHold → t.pq = left ∧ t.windows = s.windows) ∧
        ∀ r ∈ s.pq.held,
          let room := left.total < 32 ∧ (r.cls = 3 ∨ left.low < 28)
          (¬room → t.pq = left ∧ t.windows = s.windows ∧ (Settled s → t.host = s.host ∧ t.arb = s.arb)) ∧
          (room →
            t.pq = { left.setClassList r.cls (left.classList r.cls ++
              [{ channel := r.channel, span := r.span, words := zeroWords.set r.pos (mergeLanes 0 r.data r.lanes)
                 mask := r.lanes.setWidth 16 <<< (4 * r.pos.val), cls := r.cls, window := r.window }])
              with held := none } ∧
            t.windows = s.windows.set r.window { s.windows[r.window] with updates := s.windows[r.window].updates + 1 } ∧
            (Settled s → ReleasedAs .publish s t)))

/-- The return timer of the SENT head expires: RTF rises by six and, below the retry limit and short of isolation, the
whole list goes back without backoff, the head's copy going out at once on an idle link (R90, R91, R92, R150). -/
def Obligations.ReturnTimerExpiryGoesBack : Prop :=
  ∀ (h : IflEntry) (s : State), Settled s → ModeLaw s → LevelLaw s → FlightLaw s → s.resetN = true →
    s.orig.flight.head? = some h → h.state = .sent →
    s.node.params.rto.toNat ≤ (s.node.timebase - h.departure).toNat → h.retry ≠ s.node.params.retryLimit →
    s.node.rtf.toNat + 6 < 240 →
    ∃ t, exec .returnTimerExpiry s = .next t ∧ t.node.rtf.toNat = s.node.rtf.toNat + 6 ∧ t.node.lif = s.node.lif ∧
      t.node.mode = s.node.mode ∧ t.sources = s.sources ∧ t.aq = s.aq ∧ t.pq = s.pq ∧ t.mem = s.mem ∧
      t.windows = s.windows ∧ t.orig.backoff = none ∧ t.orig.nextSeq = s.orig.nextSeq ∧
      t.orig.flight.map IflEntry.retry = s.orig.flight.map (fun e => e.retry + 1) ∧
      t.orig.flight.map IflEntry.seq = s.orig.flight.map IflEntry.seq ∧
      (s.out.sending.isSome = true → t.out = s.out ∧ t.orig.resend = some h.seq ∧
        ∀ e ∈ t.orig.flight, e.state = .awaitingResend) ∧
      (s.out.sending = none → s.link.outbound = .running →
        t.out = { fifo := [], sending := some (IflEntry.frame { h with retry := h.retry + 1 } s.node.nodeId)
                  starvation := 0 } ∧
        t.orig.resend = s.orig.flight.tail.head?.map IflEntry.seq)

/-- A go-back of a head at RETRY_LIMIT, by its return timer, by an objected return or by an out-of-order return, is a
give-up: DELIVERY_FAILED is raised, every entry is discarded with a DIVERGED request on its window, next_seq is kept; from
ACTIVE, short of isolation, the node is JOINING with a new announce record and its Publish Queue kept, from DRAINING it is
OFFLINE with the Publish Queue discarded likewise and DRAIN_DONE raised (R88, R89, R91, R93, R94, R148). -/
def Obligations.GiveUpAbandonsTheList : Prop :=
  ∀ (h : IflEntry) (s : State), Settled s → HostLaw s → ModeLaw s → LevelLaw s → FlightLaw s →
    s.orig.flight.head? = some h → h.retry = s.node.params.retryLimit →
    (s.resetN = true → h.state = .sent → s.node.params.rto.toNat ≤ (s.node.timebase - h.departure).toNat →
      ∃ t, exec .returnTimerExpiry s = .next t ∧ GivenUp 6 s t ∧ t.node.lif = s.node.lif ∧ t.link = s.link) ∧
    ∀ (bytes : List Byte) (f : Frame) (x : IflEntry), parseFrame bytes = some f → Arriving s bytes →
      f.source = s.node.nodeId → f.body ≠ .announce → x ∈ s.orig.flight → x.state = .sent → f.seq = x.seq →
      f.attempt.toNat = x.retry.toNat % 4 → (f.nak = true ∨ x.seq ≠ h.seq) →
      ∃ t, exec (.frameArrival bytes) s = .next t ∧ GivenUp (if f.nak = true then 1 else 6) s t ∧ LifLowered s t ∧
        t.link = s.linkAfterFrame

/-- The announce timer expires: RTF rises by six and, short of isolation, the record has one retry more and awaits its
sending, which an idle link begins at once. The backoff runs out: the timer is IDLE and, on an idle link, the resend goes
(R82, R92, R96). -/
def Obligations.AnnounceAndBackoffTimersExpire : Prop :=
  (∀ (r : AnnounceRecord) (s : State), Settled s → ModeLaw s → LevelLaw s → s.resetN = true →
    s.orig.announce = some r → r.state = .sent →
    s.node.params.rto.toNat ≤ (s.node.timebase - r.departure).toNat → s.node.rtf.toNat + 6 < 240 →
    ∃ t, exec .announceTimerExpiry s = .next t ∧ t.node.rtf.toNat = s.node.rtf.toNat + 6 ∧ t.node.mode = .joining ∧
      t.sources = s.sources ∧ t.aq = s.aq ∧ t.pq = s.pq ∧ t.mem = s.mem ∧ t.windows = s.windows ∧
      (s.out.sending.isSome = true → t.out = s.out ∧
        t.orig = { s.orig with announce := some { r with retry := r.retry + 1, state := .awaitingSend } }) ∧
      (s.out.sending = none → s.link.outbound = .running →
        t.orig = { s.orig with
          announce := some { r with retry := r.retry + 1, state := .sent, departure := s.node.timebase } })) ∧
  (∀ (start : Time) (s : State), Settled s → s.orig.backoff = some start →
    s.node.params.nakBackoff.toNat ≤ (s.node.timebase - start).toNat → s.out.sending.isSome = true →
    exec .backoffExpiry s = .next (s.withOrig { s.orig with backoff := none })) ∧
  (∀ (start : Time) (h : IflEntry) (rest : List IflEntry) (s : State), Settled s → ModeLaw s → FlightLaw s →
    s.orig.backoff = some start → s.orig.flight = h :: rest →
    s.node.params.nakBackoff.toNat ≤ (s.node.timebase - start).toNat → s.out.sending = none →
    s.link.outbound = .running →
    exec .backoffExpiry s = .next
      ((s.withOrig { s.orig with
          backoff := none
          flight := { h with state := .sent, departure := s.node.timebase } :: rest
          resend := rest.head?.map IflEntry.seq }).withOut
        { s.out with sending := some (h.frame s.node.nodeId), starvation := 0 }))

/-! ## Node Control (chapter 8) -/

/-- A report taken under a running mode moves one counter by its weight within 0..255 and sets the level by the first row
of R152 that holds, with LEVEL_CHANGE at each change and the mode OFFLINE at ISOLATED, where the Publish Queue and the
In-Flight List are discarded and a held write demoted, each with its DIVERGED request; one taken under OFFLINE changes
nothing (R48, R54, R99, R149 to R152, R154). -/
def Obligations.FaultReportsSetTheLevel : Prop :=
  ∀ (e : Event) (mode : Mode) (r : Report),
    (mode = .offline → e.reportUnder mode r = e) ∧
    (mode ≠ .offline →
      let lif := match r with
        | .badFrame => min 255 (e.node.lif.toNat + 6)
        | .cutOff => min 255 (e.node.lif.toNat + 6)
        | .transitDrop => min 255 (e.node.lif.toNat + 3)
        | .goodFrame => e.node.lif.toNat - 1
        | _ => e.node.lif.toNat
      let rtf := match r with
        | .timerExpiry => min 255 (e.node.rtf.toNat + 6)
        | .outOfOrder => min 255 (e.node.rtf.toNat + 6)
        | .objected => min 255 (e.node.rtf.toNat + 1)
        | .cleanRetirement => e.node.rtf.toNat - 1
        | _ => e.node.rtf.toNat
      let t := e.reportUnder mode r
      let level :=
        if e.node.level ≠ .isolated ∧ (240 ≤ lif ∨ 240 ≤ rtf) then .isolated
        else if e.node.level = .normal ∧ (96 ≤ lif ∨ 96 ≤ rtf) then .degraded
        else if e.node.level = .degraded ∧ lif ≤ 63 ∧ rtf ≤ 63 then .normal
        else e.node.level
      t.node.lif.toNat = lif ∧ t.node.rtf.toNat = rtf ∧ t.node.level = level ∧
        (level ≠ e.node.level → .levelChange ∈ t.raised) ∧
        (level ≠ e.node.level → level = .isolated → t.node.mode = .offline ∧ t.pq.total = 0 ∧ t.orig.flight = [] ∧
          t.orig.announce = none ∧ t.orig.resend = none ∧ t.orig.backoff = none ∧ t.host.hold ≠ .publishHold ∧
          (e.host.hold ≠ .publishHold → t.host = e.host) ∧
          (e.host.hold = .publishHold → t.pq.held = none ∧ t.host.path = .requesting ∧ t.host.hold = .noHold ∧
            t.host.cycle = e.host.cycle.map (fun c => { c with cls := .unpublished })) ∧
          ∀ i : WinIdx,
            let asked := (∃ p ∈ e.pq.entries, p.window = i) ∨ (∃ f ∈ e.orig.flight, f.window = i) ∨
              (e.host.hold = .publishHold ∧ ∃ c ∈ e.host.cycle, c.window = some i)
            (asked → e.windows[i].kind = .owned → t.windows[i].diverged = true ∧
              (e.windows[i].diverged = false → .divergedMarked i ∈ t.raised)) ∧
            (¬asked ∨ e.windows[i].kind = .mirror → t.windows[i] = e.windows[i]) ∧
            { t.windows[i] with diverged := e.windows[i].diverged } = e.windows[i]) ∧
        (level = e.node.level ∨ level ≠ .isolated → t.node.mode = e.node.mode ∧ t.pq = e.pq ∧ t.orig = e.orig ∧
          t.windows = e.windows ∧ t.host = e.host))

/-- The microsecond timebase advances by one and wraps while RESET_N is high, and is held while it is low (R155; the
prescaler is not state, assumption 12). -/
def Obligations.TimebaseAdvances : Prop :=
  (∀ s : State, s.resetN = true →
    exec .timebaseAdvance s = .next (s.withNode { s.node with timebase := s.node.timebase + 1 })) ∧
  ∀ s : State, s.resetN = false → exec .timebaseAdvance s = .next s

/-- START in JOINING, ACTIVE or DRAINING answers BAD_STATE, in OFFLINE without an UP link NO_LINK, and changes nothing;
otherwise the counters are 0, the level NORMAL, every source UNKNOWN with its counters kept, the mode JOINING, and an
announce record with start sequence next_seq is created, which an idle link sends at once (R95, R123, R144; the departure
time of a record not yet sent is assumption 7). -/
def Obligations.StartJoinsTheRing : Prop :=
  ∀ s : State, Settled s → ModeLaw s → LinkLaw s → Completing s [0x30] →
    (s.node.mode ≠ .offline → exec .start s = .next (s.answered .start [] [0x02])) ∧
    (s.node.mode = .offline → s.link.inbound ≠ .up → exec .start s = .next (s.answered .start [] [0x05])) ∧
    (s.node.mode = .offline → s.link.inbound = .up →
      let joining :=
        (s.withSources (s.sources.map fun x => { x with known := false, expected := 0 })).withNode
          { s.node with mode := .joining, level := .normal, lif := 0, rtf := 0 }
      (s.out.sending.isSome = true →
        exec .start s = .next
          ((joining.withOrig { s.orig with
            announce := some { startSeq := s.orig.nextSeq, retry := 0, state := .awaitingSend, departure := 0 } }).answered
            .start [] [0x00])) ∧
      (s.out.sending = none →
        exec .start s = .next
          (((joining.withOrig { s.orig with
            announce := some
              { startSeq := s.orig.nextSeq, retry := 0, state := .sent, departure := s.node.timebase } }).withOut
            { s.out with
              sending := some
                { source := s.node.nodeId, seq := s.orig.nextSeq, attempt := 0, nak := false, hops := 0
                  body := .announce }
              starvation := 0 }).answered .start [] [0x00])))

/-- STOP: BAD_STATE in OFFLINE and no change in DRAINING; in ACTIVE the mode is DRAINING, or OFFLINE with DRAIN_DONE when
both queues are empty; in JOINING the Publish Queue is discarded with DIVERGED requests, the announce record abandoned
and the mode OFFLINE with DRAIN_DONE; in both a held write is kept as UNPUBLISHED, with its DIVERGED request, and its
memory request made, and every other host cycle is unchanged (R47, R54, R145, R146). -/
def Obligations.StopDrainsOrLeavesTheRing : Prop :=
  ∀ s : State, Settled s → HostLaw s → ModeLaw s → Completing s [0x31] →
    (s.node.mode = .offline → exec .stop s = .next (s.answered .stop [] [0x02])) ∧
    (s.node.mode = .draining → exec .stop s = .next (s.answered .stop [] [0x00])) ∧
    (s.node.mode = .active ∨ s.node.mode = .joining → ∃ t, exec .stop s = .next t ∧
      t.mgmt.txn.response = some [0x00] ∧ t.mgmt.txn.port = .responding ∧ t.sources = s.sources ∧ t.link = s.link ∧
      t.out = s.out ∧ t.aq = s.aq ∧ t.mem = s.mem ∧ { t.node with mode := s.node.mode } = s.node ∧
      (s.host.hold = .publishHold → ReleasedAs .unpublished s t) ∧
      (s.host.hold ≠ .publishHold → t.host = s.host ∧ t.arb = s.arb) ∧
      (∀ i : WinIdx,
        let asked := (s.node.mode = .joining ∧ ∃ p ∈ s.pq.entries, p.window = i) ∨ ∃ r ∈ s.pq.held, r.window = i
        { t.windows[i] with diverged := s.windows[i].diverged } = s.windows[i] ∧
        (t.windows[i].diverged = true ↔ s.windows[i].diverged = true ∨ (s.windows[i].kind = .owned ∧ asked)) ∧
        (asked → s.windows[i].kind = .owned → s.windows[i].diverged = false → Pending t 12)) ∧
      (s.node.mode = .active → t.orig = s.orig ∧ t.pq = { s.pq with held := none } ∧
        (s.pq.total = 0 → s.orig.flight = [] → t.node.mode = .offline ∧ Pending t 2) ∧
        (s.pq.total ≠ 0 ∨ s.orig.flight ≠ [] → t.node.mode = .draining)) ∧
      (s.node.mode = .joining → t.node.mode = .offline ∧ Pending t 2 ∧ t.orig = { s.orig with announce := none } ∧
        t.pq = PublishQueue.reset))

/-! ## Resets -/

/-- The fall of RESET_N sets every block to its hard-reset value at once, raises no cause and keeps local memory and the
node ID; a cycle accepted before goes on to its one memory cycle, a held write as PLAIN (R16, R140, R158, R172, R180; the
group boundary, the node ID while RESET_N is low and the refused write's signalling are assumptions 4, 5 and 9). -/
def Obligations.HardResetSetsEveryBlock : Prop :=
  ∀ s : State, HostLaw s → s.moments = [] → s.resetN = true →
    ∃ t, exec .hardReset s = .next t ∧ t.resetN = false ∧ ResetHeld t ∧ t.mem = s.mem ∧
      t.node.nodeId = s.node.nodeId ∧ t.pending = s.pending ∧ t.attnLow = false ∧ t.hrdy = false ∧
      (s.host.cycle = none → t.host.path = .free ∧ t.host.cycle = none) ∧
      (s.host.path = .memory → t.host.path = .memory ∧ t.host.cycle = s.host.cycle ∧ t.arb.cycle = s.arb.cycle) ∧
      (∀ c ∈ s.host.cycle, s.host.path ≠ .memory →
        t.host.cycle = some (if s.host.hold = .publishHold then { c with cls := .plain, window := none } else c) ∧
        (s.arb.cycle.isSome = true → t.host.path = .requesting ∧ t.arb.cycle = s.arb.cycle) ∧
        (s.arb.cycle = none → t.host.path = .memory ∧ t.arb.cycle =
          some { grant := .host, word := c.word, dir := c.dir, lanes := c.lanes, data := c.data.getD 0 }))

/-- The rise of RESET_N samples the node ID and starts the outbound link with the last-grant marker at HOST; a new cycle
the host presents is then accepted as if it were presented at that moment. That a host or memory cycle still running at
the rise runs on is the model's choice of assumption 14, and when a presented cycle is new that of assumption 6 (R2, R62,
R140, R157, R158, R193). -/
def Obligations.ResetReleaseSamplesTheNodeId : Prop :=
  ∀ (straps : NodeId) (s : State), Settled s → ResetHeld s → s.resetN = false →
    let released : State :=
      { s with resetN := true, node := { s.node with nodeId := straps }
               link := { s.link with outbound := .running }, arb := { s.arb with lastGrant := .host } }
    (s.host.presented = none ∨ s.host.strobeHighSince = false ∨ s.host.path ≠ .free →
      exec (.resetRelease straps) s = .next released) ∧
    (s.host.strobeHighSince = true → s.host.path = .free → ∀ c ∈ s.host.presented,
      exec (.resetRelease straps) s = exec (.hostCycleAcceptance c.addr c.dir c.lanes c.data) released)

/-- SOFT_RESET in every block: OFFLINE at NORMAL with both counters 0; both queues discarded with DIVERGED on their
windows; records, flags, next_seq, parameters, node ID and timebase kept, update counts 0; every source reset; the Transit
FIFO empty; WAITING entries voided; a held write kept as UNPUBLISHED and a held read with no entry at or before its mark
left, each with its memory request made, every other host cycle unchanged; the Attention Unit cleared as the last effect
(R17, R36, R55, R77, R100, R123, R139, R159, R172, R185, R186). -/
def Obligations.SoftResetInEveryBlock : Prop :=
  ∀ s : State, Settled s → HostLaw s → ModeLaw s → Completing s [0x0A] →
    ∃ t, exec .softReset s = .next t ∧ t.attn = Attention.reset ∧
      t.mgmt = (s.answered .softReset [] [0x00]).mgmt ∧
      t.node = { s.node with mode := .offline, level := .normal, lif := 0, rtf := 0 } ∧
      t.pq = PublishQueue.reset ∧
      t.orig = { s.orig with announce := none, resend := none, backoff := none, staleReturns := 0, flight := [] } ∧
      t.sources = Vector.replicate 16 SeqEntry.reset ∧ t.link = { s.link with orphans := 0 } ∧
      t.out = { fifo := [], sending := s.out.sending, starvation := 0 } ∧
      t.aq = { s.aq with entries := s.aq.entries.filter fun a => a.state = .writing } ∧ t.mem = s.mem ∧
      (∀ i : WinIdx, { t.windows[i] with diverged := s.windows[i].diverged } =
        { s.windows[i] with updates := 0 }) ∧
      (∀ i : WinIdx, t.windows[i].diverged = true ↔ s.windows[i].diverged = true ∨
        (s.windows[i].kind = .owned ∧
          ((∃ p ∈ s.pq.entries, p.window = i) ∨ (∃ f ∈ s.orig.flight, f.window = i) ∨
            ∃ r ∈ s.pq.held, r.window = i))) ∧
      (s.host.hold = .publishHold → ReleasedAs .unpublished s t) ∧
      (s.host.hold = .readHold →
        ((∃ a ∈ t.aq.entries, (s.host.holdMark - a.acc).toNat < 32768) → t.host = s.host ∧ t.arb = s.arb) ∧
        ((∀ a ∈ t.aq.entries, ¬(s.host.holdMark - a.acc).toNat < 32768) → ReleasedAs .plain s t)) ∧
      (s.host.hold = .noHold → t.host = s.host ∧ t.arb = s.arb) ∧
      t.host.holdMark = s.host.holdMark ∧ t.host.holdStart = s.host.holdStart

/-! ## The Management Port (chapters 2, 3, 6, 9 and 10) -/

/-- The fall of MSEL_N in DESELECTED begins a transaction in RECEIVING with MDO driving 0; its rise ends the transaction,
whatever state it reached, and MDO is no longer driven; a removal pending in TRAILING is then taken, the overflow flag
being cleared unless the drop flag is set, and one pending in RESPONDING is abandoned (R171, R173, R174, R177; the items
of the transaction that are the model's own are assumption 22). -/
def Obligations.TransactionBeginsAndEnds : Prop :=
  (∀ s : State, s.resetN = true → s.mgmt.mselN = true → s.mgmt.txn.port = .deselected →
    exec .transactionBegin s = .next
      (s.withMgmt { s.mgmt with
        mselN := false, mdo := some false
        txn := { port := .receiving, bitCount := 0, shift := 0, command := none, args := [], response := none
                 position := 0, removal := none, dropFlag := false } })) ∧
  (∀ s : State, s.resetN = true → s.mgmt.mselN = false →
    let ended := { s.mgmt with mselN := true, mdo := none, txn := Transaction.idle }
    (s.mgmt.txn.port ≠ .trailing ∨ s.mgmt.txn.removal = none →
      exec .transactionEnd s = .next (s.withMgmt ended)) ∧
    (s.mgmt.txn.port = .trailing → s.mgmt.txn.removal.isSome = true →
      exec .transactionEnd s = .next
        ((s.withAttn { s.attn with
          queue := s.attn.queue.tail
          overflow := if s.mgmt.txn.dropFlag = true then s.attn.overflow else false }).withMgmt ended)))

/-- In RECEIVING a rising edge of MCLK adds a bit to the byte; the eighth completes it as the command byte or as the next
argument byte. In RESPONDING it samples a response bit, and after the last one the port is TRAILING. A falling edge drives
the response's bit in RESPONDING, most significant bit of each byte first, and 0 in RECEIVING and TRAILING. In DESELECTED
an edge has no effect but its level. The edge that samples the last bit of a command's last byte executes the command:
from there the command's own row does the same, as the model takes the rows (assumption 10). The rules say that a bit is
sampled, driven and counted; that the bit count runs on modulo 8 in RESPONDING and TRAILING, and the values of the shift
register, which is the model's own item, are the model's choice (assumption 22; R173 to R177). -/
def Obligations.MclkShiftsOneBit : Prop :=
  (∀ (c : Instr) (bytes : List Byte) (last : Byte) (s : State), spelled c = bytes ++ [last] → c.wellFormed = true →
    Completing s (spelled c) → PortLaw s → s.mgmt.txn.received = bytes → s.mgmt.txn.bitCount = 7 →
    s.mgmt.mclk = false → exec (.mclkEdge (.rising (last.getLsbD 0))) s = exec c s) ∧
  ∀ (b : Bool) (s : State), s.resetN = true → PortLaw s →
    let t := s.mgmt.txn
    let byte : Byte := (t.shift <<< 1) ||| (if b = true then 1 else 0)
    let rises (u : Transaction) : State := s.withMgmt { s.mgmt with mclk := true, txn := u }
    (s.mgmt.mclk = false →
      (t.port = .deselected → exec (.mclkEdge (.rising b)) s = .next (rises t)) ∧
      (t.port = .receiving → t.bitCount < 7 →
        exec (.mclkEdge (.rising b)) s = .next (rises { t with bitCount := t.bitCount + 1, shift := byte })) ∧
      (t.port = .receiving → t.bitCount = 7 → t.command = none → 0 < (decodeCommand byte).argCount →
        exec (.mclkEdge (.rising b)) s = .next
          (rises { t with bitCount := 0, shift := 0, command := some (decodeCommand byte) })) ∧
      (∀ c : Command, t.port = .receiving → t.bitCount = 7 → t.command = some c → t.args.length + 1 < c.argCount →
        exec (.mclkEdge (.rising b)) s = .next (rises { t with bitCount := 0, shift := 0, args := t.args ++ [byte] })) ∧
      (∀ bytes : List Byte, t.port = .responding → t.response = some bytes →
        exec (.mclkEdge (.rising b)) s = .next
          (rises { t with
            bitCount := if t.bitCount = 7 then 0 else t.bitCount + 1, position := t.position + 1
            port := if t.position + 1 = 8 * bytes.length then .trailing else .responding })) ∧
      (t.port = .trailing →
        exec (.mclkEdge (.rising b)) s = .next
          (rises { t with bitCount := if t.bitCount = 7 then 0 else t.bitCount + 1 }))) ∧
    (s.mgmt.mclk = true →
      (t.port = .deselected → exec (.mclkEdge .falling) s = .next (s.withMgmt { s.mgmt with mclk := false })) ∧
      (t.port = .receiving ∨ t.port = .trailing →
        exec (.mclkEdge .falling) s = .next (s.withMgmt { s.mgmt with mclk := false, mdo := some false })) ∧
      (∀ (bytes : List Byte) (k : Fin bytes.length) (j : Fin 8), t.port = .responding → t.response = some bytes →
        t.position = 8 * k.val + j.val →
        exec (.mclkEdge .falling) s = .next
          (s.withMgmt { s.mgmt with mclk := false, mdo := some (bytes[k].getLsbD (7 - j.val)) })))

/-- IDENT, READ_EVENTS, STATUS and an unknown command byte change nothing but the transaction, and report what stands at
the execution in their layouts (R101, R141, R160, R167, R175, R178, R181, R182, R190 to R192). -/
def Obligations.ReadingCommandsReportASnapshot : Prop :=
  ∀ s : State, CapacityLaw s →
    let byte (n : Nat) : Byte := BitVec.ofNat 8 n
    let two (v : BitVec 16) : List Byte := [v.extractLsb' 8 8, v.extractLsb' 0 8]
    let four (v : BitVec 32) : List Byte :=
      [v.extractLsb' 24 8, v.extractLsb' 16 8, v.extractLsb' 8 8, v.extractLsb' 0 8]
    (Completing s [0x01] →
      exec .ident s = .next (s.answered .ident [] [0x00, 0x24, 0x16, 0x01, byte s.node.nodeId.val])) ∧
    (Completing s [0x40] →
      exec .readEvents s = .next
        (s.answered .readEvents []
          (0x00 :: (two (s.attn.raisedSet.setWidth 16) ++ two (s.attn.enableSet.setWidth 16) ++
            [byte ((if s.attn.overflow = true then 128 else 0) + s.attn.queue.length)])))) ∧
    (∀ code : Byte, namedCodes.contains code = false → Completing s [code] →
      exec (.unknownCommand code) s = .next (s.answered (.unknown code) [] [0x06])) ∧
    (Completing s [0x02] →
      let mode := match s.node.mode with | .offline => 0 | .joining => 1 | .active => 2 | .draining => 3
      let level := match s.node.level with | .normal => 0 | .degraded => 1 | .isolated => 2
      let path := match s.host.path with | .free => 0 | .holding => 1 | .requesting => 2 | .memory => 3
      let hold := match s.host.hold with | .noHold => 0 | .publishHold => 1 | .readHold => 2
      let heldAt := if s.host.hold = .publishHold then (s.host.cycle.bind CycleRecord.window).map Fin.val else none
      let announce := s.orig.announce.map fun r => if r.state = .sent then 2 else 1
      let inbound := match s.link.inbound with | .noSignal => 0 | .aligning => 1 | .up => 2
      exec .status s = .next
        (s.answered .status []
          (0x00 :: ([byte (64 * mode + 16 * level + s.node.nodeId.val), s.node.lif, s.node.rtf] ++
            four s.node.timebase ++
            [byte (64 * path + 16 * hold), byte ((heldAt.map (128 + ·)).getD 0)] ++
            four (if s.host.hold = .noHold then 0 else s.host.holdStart) ++
            two (if s.host.hold = .readHold then s.host.holdMark else 0) ++
            [byte s.pq.class0.length, byte s.pq.class1.length, byte s.pq.class2.length, byte s.pq.class3.length,
              s.orig.nextSeq, byte s.orig.flight.length, (s.orig.flight.head?.map IflEntry.seq).getD 0,
              (s.orig.flight.head?.map IflEntry.retry).getD 0,
              byte (s.orig.flight.filter fun f => f.state = .awaitingResend).length,
              byte ((if s.orig.backoff.isSome = true then 128 else 0) + 16 * announce.getD 0),
              (s.orig.announce.map AnnounceRecord.retry).getD 0] ++
            two s.orig.staleReturns ++
            [byte (64 * inbound + s.out.fifo.length), byte s.out.starvation] ++ two s.link.orphans ++
            [byte s.aq.entries.length] ++ two ((s.aq.entries.head?.map AqEntry.acc).getD 0) ++
            [byte ((if s.aq.entries.head?.map AqEntry.state = some .writing then 128 else 0) +
              (if s.arb.lastGrant = .apply then 64 else 0))] ++
            two s.aq.nextAcc))))

/-- READ_PARAMS answers the parameter block as it stands and changes nothing; SET_PARAMS in OFFLINE with arguments in
their ranges writes all four values, and otherwise answers BAD_STATE before BAD_ARG and writes none; a hard reset leaves
the defaults, and nothing but these two events changes the block (R183, R184). -/
def Obligations.ParametersAreReadAndWritten : Prop :=
  (∀ s : State, Completing s [0x03] →
    let p := s.node.params
    exec .readParams s = .next
      (s.answered .readParams []
        [0x00, p.rto.extractLsb' 8 8, p.rto.extractLsb' 0 8, p.phl.extractLsb' 8 8, p.phl.extractLsb' 0 8, p.retryLimit,
          p.nakBackoff.extractLsb' 8 8, p.nakBackoff.extractLsb' 0 8])) ∧
  (∀ (rto phl nakBackoff : BitVec 16) (retryLimit : Byte) (s : State),
    let command : Instr := .setParams rto phl retryLimit nakBackoff
    Completing s (spelled command) →
    let answer (u : State) (status : Byte) := u.answered .setParams (spelled command).tail [status]
    (s.node.mode ≠ .offline → exec command s = .next (answer s 0x02)) ∧
    (s.node.mode = .offline → rto.toNat < 16 ∨ retryLimit.toNat < 1 ∨ 1023 < nakBackoff.toNat →
      exec command s = .next (answer s 0x03)) ∧
    (s.node.mode = .offline → 16 ≤ rto.toNat → 1 ≤ retryLimit.toNat → nakBackoff.toNat ≤ 1023 →
      exec command s = .next
        (answer (s.withNode { s.node with
          params := { rto := rto, phl := phl, retryLimit := retryLimit, nakBackoff := nakBackoff } }) 0x00))) ∧
  (∀ s t : State, s.resetN = true → exec .hardReset s = .next t →
    t.node.params = { rto := 2000, phl := 50, retryLimit := 16, nakBackoff := 20 }) ∧
  ∀ (c : Instr) (s t : State), exec c s = .next t → t.node.params ≠ s.node.params →
    (c = .hardReset ∧ s.resetN = true) ∨
    (Executes s t .setParams ∧ s.node.mode = .offline ∧ t.mgmt.txn.response = some [0x00] ∧
      t.node.params = { rto := arg16 t.mgmt.txn.args 0, phl := arg16 t.mgmt.txn.args 2
                        retryLimit := argByte t.mgmt.txn.args 4, nakBackoff := arg16 t.mgmt.txn.args 5 })

/-- READ_WINDOW answers the whole record of its window and the queued count, and CLEAR_WINDOW clears DIVERGED and STALE of
its window and nothing else; an index of 16 or more is BAD_ARG and changes nothing (R23 to R25, R34, R190). -/
def Obligations.WindowsAreReadAndCleared : Prop :=
  ∀ (n : Byte) (s : State), CapacityLaw s →
    (Completing s [0x10, n] →
      (16 ≤ n.toNat → exec (.readWindow n) s = .next (s.answered .readWindow [n] [0x03])) ∧
      ∀ i : WinIdx, n.toNat = i.val →
        let w := s.windows[i]
        let base : BitVec 24 := w.base.setWidth 24
        let queued := match w.kind with
          | .owned => (s.pq.entries.filter fun p => p.window = i).length
          | .mirror => (s.aq.entries.filter fun a => a.window = i).length
        exec (.readWindow n) s = .next
          (s.answered .readWindow [n]
            [0x00,
              BitVec.ofNat 8 ((if w.kind = .mirror then 128 else 0) + (if w.enabled = true then 64 else 0) +
                (if w.combine = true then 32 else 0) + (if w.policy = .refuse then 16 else 0) +
                (if w.diverged = true then 2 else 0) + (if w.stale = true then 1 else 0)),
              base.extractLsb' 16 8, base.extractLsb' 8 8, base.extractLsb' 0 8, w.sizeCode, w.channel,
              BitVec.ofNat 8 w.cls.val, w.updates.extractLsb' 24 8, w.updates.extractLsb' 16 8,
              w.updates.extractLsb' 8 8, w.updates.extractLsb' 0 8, BitVec.ofNat 8 queued])) ∧
    (Completing s [0x14, n] →
      (16 ≤ n.toNat → exec (.clearWindow n) s = .next (s.answered .clearWindow [n] [0x03])) ∧
      ∀ i : WinIdx, n.toNat = i.val →
        exec (.clearWindow n) s = .next
          ((s.setWindow i { s.windows[i] with diverged := false, stale := false }).answered .clearWindow [n] [0x00]))

/-- WRITE_WINDOW answers BAD_ARG for an index of 16 or more, then BUSY for an enabled window, then BAD_ARG for a
configuration outside its ranges or a base that is no multiple of the size, changing nothing; otherwise it replaces the
configuration, clears both flags and the update count, leaves the window not enabled and answers OK (R26, R27). -/
def Obligations.WriteWindowChecksThenReplaces : Prop :=
  ∀ (n kind sizeCode channel cls combine policy : Byte) (base : BitVec 24) (s : State),
    let command : Instr := .writeWindow n kind base sizeCode channel cls combine policy
    Completing s (spelled command) →
    let answer (u : State) (status : Byte) := u.answered .writeWindow (spelled command).tail [status]
    let valid := kind.toNat ≤ 1 ∧ combine.toNat ≤ 1 ∧ policy.toNat ≤ 1 ∧ 4 ≤ sizeCode.toNat ∧ sizeCode.toNat ≤ 20 ∧
      cls.toNat ≤ 3 ∧ base.toNat ≤ 4194303 ∧ base.toNat % 2 ^ sizeCode.toNat = 0
    (16 ≤ n.toNat → exec command s = .next (answer s 0x03)) ∧
    ∀ i : WinIdx, n.toNat = i.val →
      (s.windows[i].enabled = true → exec command s = .next (answer s 0x01)) ∧
      (s.windows[i].enabled = false → ¬valid → exec command s = .next (answer s 0x03)) ∧
      ∀ k : PrioClass, s.windows[i].enabled = false → valid → cls.toNat = k.val →
        exec command s = .next
          (answer (s.setWindow i
            { kind := if kind.toNat = 1 then .mirror else .owned, enabled := false
              base := BitVec.ofNat 22 base.toNat, sizeCode := sizeCode, channel := channel, cls := k
              combine := if combine.toNat = 1 then true else false
              policy := if policy.toNat = 1 then .refuse else .accept
              diverged := false, stale := false, updates := 0 }) 0x00)

/-- ENABLE_WINDOW answers BAD_ARG for an index of 16 or more, OK with no change for an enabled window, BAD_STATE for one
never written, CONFLICT with the lowest-index enabled window that carries its channel or overlaps it with the other kind,
changing nothing; otherwise it enables the window and answers OK (R28, R29). -/
def Obligations.EnableWindowChecksThenEnables : Prop :=
  ∀ (n : Byte) (s : State), Completing s [0x12, n] →
    let answer (u : State) (response : List Byte) := u.answered .enableWindow [n] response
    (16 ≤ n.toNat → exec (.enableWindow n) s = .next (answer s [0x03])) ∧
    ∀ i : WinIdx, n.toNat = i.val →
      let written := 4 ≤ s.windows[i].sizeCode.toNat ∧ s.windows[i].sizeCode.toNat ≤ 20
      let conflict (j : WinIdx) : Prop := s.windows[j].enabled = true ∧
        (s.windows[j].channel = s.windows[i].channel ∨
          (s.windows[j].kind ≠ s.windows[i].kind ∧ ¬s.windows[j].apart s.windows[i]))
      (s.windows[i].enabled = true → exec (.enableWindow n) s = .next (answer s [0x00])) ∧
      (s.windows[i].enabled = false → ¬written → exec (.enableWindow n) s = .next (answer s [0x02])) ∧
      (∀ j : WinIdx, s.windows[i].enabled = false → written → conflict j → (∀ k : WinIdx, k < j → ¬conflict k) →
        exec (.enableWindow n) s = .next (answer s [0x04, BitVec.ofNat 8 j.val])) ∧
      (s.windows[i].enabled = false → written → (∀ j : WinIdx, ¬conflict j) →
        exec (.enableWindow n) s = .next
          (answer (s.setWindow i { s.windows[i] with enabled := true }) [0x00]))

/-- DISABLE_WINDOW sets an enabled window not enabled, keeping its record. For a MIRROR window its WAITING Apply Queue
entries are voided, and a read held with no entry at or before its mark left is released; a write in PUBLISH_HOLD on the
window is demoted to PLAIN with no flag request; both queues, memory and every other cycle stay (R24, R30 to R33, R49). -/
def Obligations.DisableWindowVoidsAndDemotes : Prop :=
  ∀ (n : Byte) (s : State), Settled s → HostLaw s → Completing s [0x13, n] →
    (16 ≤ n.toNat → exec (.disableWindow n) s = .next (s.answered .disableWindow [n] [0x03])) ∧
    ∀ i : WinIdx, n.toNat = i.val →
      (s.windows[i].enabled = false →
        exec (.disableWindow n) s = .next (s.answered .disableWindow [n] [0x00])) ∧
      (s.windows[i].enabled = true → ∃ t, exec (.disableWindow n) s = .next t ∧ RingUnchanged s t ∧ t.mem = s.mem ∧
        t.attn = s.attn ∧ t.mgmt = (s.answered .disableWindow [n] [0x00]).mgmt ∧
        t.windows = s.windows.set i { s.windows[i] with enabled := false } ∧
        t.aq.nextAcc = s.aq.nextAcc ∧
        t.aq.entries = s.aq.entries.filter
          (fun a => !(s.windows[i].kind = .mirror && a.state = .waiting && a.window = i)) ∧
        (s.host.hold = .publishHold → (∀ c ∈ s.host.cycle, c.window = some i) →
          t.pq = { s.pq with held := none } ∧ t.host.hold = .noHold ∧
          t.host.cycle = s.host.cycle.map (fun c => { c with cls := .plain, window := none }) ∧
          t.host.path = if s.arb.cycle = none then .memory else .requesting) ∧
        (s.host.hold = .publishHold → (∃ c ∈ s.host.cycle, c.window ≠ some i) → t.pq = s.pq ∧ t.host = s.host) ∧
        (s.host.hold = .noHold → t.pq = s.pq ∧ t.host = s.host ∧ t.arb = s.arb) ∧
        (s.host.hold = .readHold →
          t.pq = s.pq ∧ t.host.cycle = s.host.cycle ∧
          (s.windows[i].kind = .owned → t.host = s.host) ∧
          (s.windows[i].kind = .mirror →
            (∃ a ∈ t.aq.entries, (s.host.holdMark - a.acc).toNat < 32768) → t.host = s.host) ∧
          (s.windows[i].kind = .mirror → s.arb.cycle.isSome = true →
            (∀ a ∈ t.aq.entries, ¬(s.host.holdMark - a.acc).toNat < 32768) →
            t.host = { s.host with hold := .noHold, path := .requesting })))

/-- FLUSH removes every entry of a class list and answers their number, asks for DIVERGED on their windows and on no
other, and leaves the other lists, the In-Flight List and every other item of a window; a held request that then finds
room is captured as a new entry, counted and released; a drain with nothing left ends with DRAIN_DONE. A class of 4 or more
is BAD_ARG, an empty list answers 0, and both change nothing (R21, R45, R53, R146). -/
def Obligations.FlushEmptiesOneClass : Prop :=
  ∀ (n : Byte) (s : State), Settled s → HostLaw s → ModeLaw s → CapacityLaw s → Completing s [0x20, n] →
    (4 ≤ n.toNat → exec (.flush n) s = .next (s.answered .flush [n] [0x03])) ∧
    ∀ c : PrioClass, n.toNat = c.val →
      let l := s.pq.classList c
      let left := s.pq.setClassList c []
      let room (k : PrioClass) : Prop := left.total < 32 ∧ (k = 3 ∨ left.low < 28)
      (l = [] → exec (.flush n) s = .next (s.answered .flush [n] [0x00, 0x00])) ∧
      (l ≠ [] → ∃ t, exec (.flush n) s = .next t ∧
        t.mgmt.txn.response = some [0x00, BitVec.ofNat 8 l.length] ∧ t.mgmt.txn.port = .responding ∧
        t.orig = s.orig ∧ t.out = s.out ∧ t.link = s.link ∧ t.sources = s.sources ∧ t.aq = s.aq ∧ t.mem = s.mem ∧
        { t.node with mode := s.node.mode } = s.node ∧
        (∀ i : WinIdx, t.windows[i].diverged = true ↔
          s.windows[i].diverged = true ∨ (s.windows[i].kind = .owned ∧ ∃ p ∈ l, p.window = i)) ∧
        (∀ p ∈ l, s.windows[p.window].kind = .owned → s.windows[p.window].diverged = false → Pending t 12) ∧
        (s.pq.held = none →
          t.pq = left ∧ t.host = s.host ∧ t.arb = s.arb ∧
          (∀ i : WinIdx, { t.windows[i] with diverged := s.windows[i].diverged } = s.windows[i]) ∧
          (s.node.mode = .draining → left.total = 0 → s.orig.flight = [] → t.node.mode = .offline ∧ Pending t 2) ∧
          (¬(s.node.mode = .draining ∧ left.total = 0 ∧ s.orig.flight = []) → t.node.mode = s.node.mode)) ∧
        (∀ r ∈ s.pq.held, ¬room r.cls → t.pq = left ∧ t.host = s.host ∧ t.arb = s.arb ∧ t.node = s.node ∧
          ∀ i : WinIdx, { t.windows[i] with diverged := s.windows[i].diverged } = s.windows[i]) ∧
        (∀ r ∈ s.pq.held, room r.cls →
          t.pq = { left.setClassList r.cls (left.classList r.cls ++
            [{ channel := r.channel, span := r.span, words := zeroWords.set r.pos (mergeLanes 0 r.data r.lanes)
               mask := r.lanes.setWidth 16 <<< (4 * r.pos.val), cls := r.cls, window := r.window }]) with held := none } ∧
          t.host.hold = .noHold ∧ t.host.path = (if s.arb.cycle = none then .memory else .requesting) ∧
          (∀ k ∈ s.host.cycle, t.host.cycle = some { k with cls := .publish }) ∧ t.node = s.node ∧
          ∀ i : WinIdx, { t.windows[i] with diverged := s.windows[i].diverged } =
            if i = r.window then { s.windows[i] with updates := s.windows[i].updates + 1 } else s.windows[i]))

/-- READ_SOURCE answers the entry of its node in the layout of R190, in every mode, and changes nothing; an index of 16 or
more is BAD_ARG (R122, R190). -/
def Obligations.ReadSourceReportsTheEntry : Prop :=
  ∀ (n : Byte) (s : State), Completing s [0x28, n] →
    (16 ≤ n.toNat → exec (.readSource n) s = .next (s.answered .readSource [n] [0x03])) ∧
    ∀ i : NodeId, n.toNat = i.val →
      let x := s.sources[i]
      exec (.readSource n) s = .next
        (s.answered .readSource [n]
          [0x00, if x.known = true then 0x01 else 0x00, x.expected,
            x.taken.extractLsb' 24 8, x.taken.extractLsb' 16 8, x.taken.extractLsb' 8 8, x.taken.extractLsb' 0 8,
            x.duplicates.extractLsb' 8 8, x.duplicates.extractLsb' 0 8,
            x.gaps.extractLsb' 8 8, x.gaps.extractLsb' 0 8])

/-- SET_ENABLES replaces the enable flags and ACK_EVENTS clears the pending flags it names and answers those left; with
bit 14 or 15 set both are BAD_ARG and change nothing. TAKE_INCIDENT answers the head of the Incident Queue and holds its
removal pending, removing nothing yet. ATTN is low exactly while a cause is both pending and enabled. Raising a cause sets
its pending flag alone and appends a record with the timebase; at 8 records it is dropped, which sets the overflow flag
and, while a removal is pending, the drop flag. The causes of one event are appended in increasing order of cause number
and of window index, none while RESET_N is low; so are the records that any one command adds, ALIGNMENT_LOST apart, which
can hold two events (R161 to R164, R166, R168 to R170, R173, R191). -/
def Obligations.EventCommandsServeAttention : Prop :=
  (∀ (o : Occurrence) (s : State),
    let t := appendIncident s o
    (∀ k : Fin 14, t.attn.raisedSet.getLsbD k.val = true ↔
      s.attn.raisedSet.getLsbD k.val = true ∨ k.val + 1 = o.cause) ∧
    t.attn.enableSet = s.attn.enableSet ∧
    (s.attn.queue.length < 8 →
      t.attn.queue = s.attn.queue ++ [{ what := o, time := s.node.timebase }] ∧ t.attn.overflow = s.attn.overflow ∧
      t.mgmt = s.mgmt) ∧
    (8 ≤ s.attn.queue.length →
      t.attn.queue = s.attn.queue ∧ t.attn.overflow = true ∧
      (s.mgmt.txn.removal = none → t.mgmt = s.mgmt) ∧
      (s.mgmt.txn.removal.isSome = true →
        t.mgmt = { s.mgmt with txn := { s.mgmt.txn with dropFlag := true } })) ∧
    (t.withAttn s.attn).withMgmt s.mgmt = s) ∧
  (∀ e : Event,
    (e.resetN = true →
      e.commit = (inRankOrder e.raised).foldl appendIncident e.toState ∧
      (inRankOrder e.raised).Perm e.raised ∧ (inRankOrder e.raised).Pairwise InOrderOfCauses) ∧
    (e.resetN = false → e.commit = e.toState)) ∧
  (∀ (c : Instr) (s t : State), exec c s = .next t → c ≠ .alignmentLost → c ≠ .hardReset → c ≠ .transactionEnd →
    ¬Executes s t .softReset → ∃ new : List Incident, t.attn.queue = s.attn.queue ++ new ∧
      (∀ r ∈ new, r.time = s.node.timebase ∧ Pending t r.what.cause) ∧
      (new.map Incident.what).Pairwise InOrderOfCauses ∧
      (t.attn.overflow ≠ s.attn.overflow → t.attn.overflow = true ∧ 8 ≤ t.attn.queue.length)) ∧
  (∀ s : State, s.attnLow = true ↔ ∃ k : Fin 14,
    s.attn.raisedSet.getLsbD k.val = true ∧ s.attn.enableSet.getLsbD k.val = true) ∧
  (∀ (set : BitVec 16) (s : State), Completing s [0x41, set.extractLsb' 8 8, set.extractLsb' 0 8] →
    let args : List Byte := [set.extractLsb' 8 8, set.extractLsb' 0 8]
    (16384 ≤ set.toNat → exec (.setEnables set) s = .next (s.answered .setEnables args [0x03])) ∧
    (set.toNat < 16384 → exec (.setEnables set) s = .next
      ((s.withAttn { s.attn with enableSet := set.setWidth 14 }).answered .setEnables args [0x00]))) ∧
  (∀ (set : BitVec 16) (s : State), Completing s [0x42, set.extractLsb' 8 8, set.extractLsb' 0 8] →
    let args : List Byte := [set.extractLsb' 8 8, set.extractLsb' 0 8]
    (16384 ≤ set.toNat → exec (.ackEvents set) s = .next (s.answered .ackEvents args [0x03])) ∧
    (set.toNat < 16384 → ∃ left : CauseSet,
      (∀ k : Fin 14, left.getLsbD k.val = true ↔
        s.attn.raisedSet.getLsbD k.val = true ∧ set.getLsbD k.val = false) ∧
      exec (.ackEvents set) s = .next
        ((s.withAttn { s.attn with raisedSet := left }).answered .ackEvents args
          [0x00, BitVec.ofNat 8 (left.toNat / 256), BitVec.ofNat 8 left.toNat]))) ∧
  ∀ s : State, CapacityLaw s → Completing s [0x43] →
    let taking (removal : Option Incident) : State :=
      s.withMgmt { s.mgmt with txn := { s.mgmt.txn with removal := removal, dropFlag := false } }
    let counts := (if s.attn.overflow = true then 64 else 0) + s.attn.queue.length
    (s.attn.queue = [] → exec .takeIncident s = .next
      ((taking none).answered .takeIncident []
        [0x00, BitVec.ofNat 8 counts, 0, 0, 0, 0, 0, 0, 0, 0, 0, 0, 0, 0])) ∧
    ∀ r ∈ s.attn.queue.head?,
      let word : WordAddr := r.what.word.getD 0
      exec .takeIncident s = .next
        ((taking (some r)).answered .takeIncident []
          [0x00, BitVec.ofNat 8 (128 + counts), BitVec.ofNat 8 r.what.cause,
            r.time.extractLsb' 24 8, r.time.extractLsb' 16 8, r.time.extractLsb' 8 8, r.time.extractLsb' 0 8,
            BitVec.ofNat 8 ((r.what.window.map Fin.val).getD 0), BitVec.ofNat 8 ((r.what.source.map Fin.val).getD 0),
            r.what.seq.getD 0, BitVec.ofNat 8 (word.toNat / 65536), BitVec.ofNat 8 (word.toNat / 256),
            BitVec.ofNat 8 word.toNat, BitVec.ofNat 8 ((r.what.cls.map Fin.val).getD 0)])

/-! ## Laws that every step keeps, and rules of the whole machine -/

/-- The state after reset meets every law of the state; the values the spec does not give are those of assumptions 2, 4,
5, 21 and 22. -/
def Obligations.ResetStateIsLawful : Prop := Lawful State.reset

/-- Every command keeps local memory in its canonical form and the law of the Window Table: no two enabled windows carry
one channel, no enabled OWNED window overlaps an enabled MIRROR window, and every base is a multiple of its size
(R18, R28). -/
def Obligations.WindowTableLawIsKept : Prop :=
  ∀ s t : State, step s = .next t → (MemoryLaw s → MemoryLaw t) ∧ (WindowLaw s → WindowLaw t)

/-- From a lawful state every step keeps the laws of the queues, the mode, the level and the In-Flight List: capacities,
what each queue's entries hold, an empty Publish Queue and In-Flight List in OFFLINE, an announce record exactly in
JOINING, ISOLATED only in OFFLINE, and consecutive sequences with the resend pointer at the first entry that awaits a
resend (R37, R38, R71, R79, R80, R92, R124, R125, R143, R152, R154, R166). -/
def Obligations.QueueAndModeLawsAreKept : Prop :=
  ∀ s t : State, Lawful s → step s = .next t →
    CapacityLaw t ∧ QueueLaw t ∧ ModeLaw t ∧ LevelLaw t ∧ FlightLaw t

/-- From a lawful state every step keeps the laws of the ports: the Host Path agrees with its cycle, its hold, the held
request and the memory port; the Link Interface, the management transaction and the state under RESET_N low agree with
themselves; HD is driven only while a completed read's HSTB_N is still low; and no arbiter is left idle with something to
choose, but for a moment of which a further event is to come (R1, R44, R58, R73, R132, R133, R158, R173, R193). -/
def Obligations.PortLawsAreKept : Prop :=
  ∀ s t : State, Lawful s → step s = .next t → HostLaw t ∧ LinkLaw t ∧ PortLaw t ∧ ResetHeld t ∧ MomentLaw t ∧
    DriveLaw t ∧ (Settled s → Settled t)

/-- Which commands may change what. Memory changes only where the running write cycle, at its completion, enables a lane;
the node ID only at RESET_RELEASE; the timebase only by one at its advance, or to 0 at the hard reset; a window's
configuration only by WRITE_WINDOW and the hard reset; next_seq only by one more, or to 0 at the hard reset; a pending
flag is cleared, an enable flag changed and a node freed from ISOLATED only by the commands of the management port and the
hard reset (R26, R79, R129, R154, R155, R157, R161). That no command changes the queue of waiting commands, and that it
takes at most its own event off `moments`, are the model's own (assumptions 11 and 25): no rule names these two fields. -/
def Obligations.OnlyTheseCommandsChangeThese : Prop :=
  ∀ (c : Instr) (s t : State), exec c s = .next t →
    (∀ a : Nat, t.mem.readByte a ≠ s.mem.readByte a →
      (∃ sd, c = .memoryCycleCompletion sd) ∧
        ∃ m ∈ s.arb.cycle, m.dir = .write ∧ ∃ lane : Fin 4, m.lanes.getLsbD lane.val = true ∧
          a = 4 * m.word.toNat + lane.val) ∧
    (t.node.nodeId ≠ s.node.nodeId → c = .resetRelease t.node.nodeId ∧ s.resetN = false) ∧
    (t.node.timebase ≠ s.node.timebase →
      (c = .timebaseAdvance ∧ s.resetN = true ∧ t.node.timebase = s.node.timebase + 1) ∨
      (c = .hardReset ∧ s.resetN = true ∧ t.node.timebase = 0)) ∧
    (t.resetN ≠ s.resetN → c = .hardReset ∨ ∃ straps, c = .resetRelease straps) ∧
    (t.orig.nextSeq ≠ s.orig.nextSeq → t.orig.nextSeq = s.orig.nextSeq + 1 ∨ (c = .hardReset ∧ t.orig.nextSeq = 0)) ∧
    t.pending = s.pending ∧ (t.moments = s.moments ∨ ∃ k later, s.moments = k :: later ∧
      t.moments = if k = 0 then later else (k - 1) :: later) ∧
    (c ≠ .hardReset → ¬Executes s t .writeWindow → ∀ i : WinIdx,
      t.windows[i].kind = s.windows[i].kind ∧ t.windows[i].base = s.windows[i].base ∧
        t.windows[i].sizeCode = s.windows[i].sizeCode ∧ t.windows[i].channel = s.windows[i].channel ∧
        t.windows[i].cls = s.windows[i].cls ∧ t.windows[i].combine = s.windows[i].combine ∧
        t.windows[i].policy = s.windows[i].policy ∧
        (¬Executes s t .enableWindow → ¬Executes s t .disableWindow → t.windows[i].enabled = s.windows[i].enabled)) ∧
    (c ≠ .hardReset → ¬Executes s t .softReset →
      (¬Executes s t .setEnables → t.attn.enableSet = s.attn.enableSet) ∧
      (¬Executes s t .ackEvents → ∀ k : Fin 14, s.attn.raisedSet.getLsbD k.val = true →
        t.attn.raisedSet.getLsbD k.val = true) ∧
      (¬Executes s t .start → s.node.level = .isolated → t.node.level = .isolated))

/-- Frames and symbols are read as they are sent: the bytes of a frame whose mask has a bit and whose words are those of
its present positions are read back as the frame, and only such frames are read; bytes whose last two are not the check of
the bytes before them, high byte first, are not read. The check starts at 0xFFFF and takes each bit, the most significant
of a byte first, by one shift and, where the bit shifted out differs from it, the generator 0x1021. A symbol's code group
is classified as that symbol, and a group that is classified as a valid symbol is its code group
(R65 to R69, R187, R188). -/
def Obligations.FramesAreReadAsSent : Prop :=
  let sendable (f : Frame) : Prop :=
    ∀ (channel : Byte) (span : SpanOffset) (mask : SpanMask) (words : List Word),
      f.body = .update channel span mask words → mask ≠ 0 ∧ words.length = presentCount mask
  (∀ f : Frame, sendable f → parseFrame f.bytes = some f) ∧
  (∀ (bytes : List Byte) (f : Frame), parseFrame bytes = some f → sendable f ∧ f.bytes.length = bytes.length) ∧
  (∀ (body : List Byte) (high low : Byte), check body ≠ high ++ low → parseFrame (body ++ [high, low]) = none) ∧
  (∀ bytes : List Byte,
    let bits := bytes.flatMap fun v => (List.range 8).map fun k => v.getLsbD (7 - k)
    check bytes = bits.foldl (fun (r : BitVec 16) (bit : Bool) => (r <<< 1) ^^^ (if r.getLsbD 15 = bit then 0 else 0x1021)) 0xFFFF) ∧
  (∀ (sym : Symbol) (g : BitVec 10), codeGroup sym = some g → classifyGroup g = sym) ∧
  ∀ (sym : Symbol) (g : BitVec 10), classifyGroup g = sym → sym ≠ .invalid → codeGroup sym = some g
end

