-- ==== Sys2Proof/Laws/State.lean ====
section
/-! SUPPORT. One lemma for each field of `State` under each of its updates, and what the event operations do to the state
and to the causes raised: later proofs rewrite with these and unfold no record update. -/

namespace Sys2Proof.Machine

variable (s : State) (e : Event)

/-! ## withResetN -/

@[simp] theorem State.withResetN_resetN (v : Bool) : (s.withResetN v).resetN = v := rfl
@[simp] theorem State.withResetN_host (v : Bool) : (s.withResetN v).host = s.host := rfl
@[simp] theorem State.withResetN_windows (v : Bool) : (s.withResetN v).windows = s.windows := rfl
@[simp] theorem State.withResetN_pq (v : Bool) : (s.withResetN v).pq = s.pq := rfl
@[simp] theorem State.withResetN_orig (v : Bool) : (s.withResetN v).orig = s.orig := rfl
@[simp] theorem State.withResetN_link (v : Bool) : (s.withResetN v).link = s.link := rfl
@[simp] theorem State.withResetN_out (v : Bool) : (s.withResetN v).out = s.out := rfl
@[simp] theorem State.withResetN_sources (v : Bool) : (s.withResetN v).sources = s.sources := rfl
@[simp] theorem State.withResetN_aq (v : Bool) : (s.withResetN v).aq = s.aq := rfl
@[simp] theorem State.withResetN_arb (v : Bool) : (s.withResetN v).arb = s.arb := rfl
@[simp] theorem State.withResetN_node (v : Bool) : (s.withResetN v).node = s.node := rfl
@[simp] theorem State.withResetN_attn (v : Bool) : (s.withResetN v).attn = s.attn := rfl
@[simp] theorem State.withResetN_mgmt (v : Bool) : (s.withResetN v).mgmt = s.mgmt := rfl
@[simp] theorem State.withResetN_mem (v : Bool) : (s.withResetN v).mem = s.mem := rfl
@[simp] theorem State.withResetN_pending (v : Bool) : (s.withResetN v).pending = s.pending := rfl
@[simp] theorem State.withResetN_moments (v : Bool) : (s.withResetN v).moments = s.moments := rfl
@[simp] theorem State.withResetN_withResetN (v w : Bool) : (s.withResetN v).withResetN w = s.withResetN w := rfl
@[simp] theorem State.withResetN_self : s.withResetN s.resetN = s := rfl

/-! ## withHost -/

@[simp] theorem State.withHost_resetN (v : HostPath) : (s.withHost v).resetN = s.resetN := rfl
@[simp] theorem State.withHost_host (v : HostPath) : (s.withHost v).host = v := rfl
@[simp] theorem State.withHost_windows (v : HostPath) : (s.withHost v).windows = s.windows := rfl
@[simp] theorem State.withHost_pq (v : HostPath) : (s.withHost v).pq = s.pq := rfl
@[simp] theorem State.withHost_orig (v : HostPath) : (s.withHost v).orig = s.orig := rfl
@[simp] theorem State.withHost_link (v : HostPath) : (s.withHost v).link = s.link := rfl
@[simp] theorem State.withHost_out (v : HostPath) : (s.withHost v).out = s.out := rfl
@[simp] theorem State.withHost_sources (v : HostPath) : (s.withHost v).sources = s.sources := rfl
@[simp] theorem State.withHost_aq (v : HostPath) : (s.withHost v).aq = s.aq := rfl
@[simp] theorem State.withHost_arb (v : HostPath) : (s.withHost v).arb = s.arb := rfl
@[simp] theorem State.withHost_node (v : HostPath) : (s.withHost v).node = s.node := rfl
@[simp] theorem State.withHost_attn (v : HostPath) : (s.withHost v).attn = s.attn := rfl
@[simp] theorem State.withHost_mgmt (v : HostPath) : (s.withHost v).mgmt = s.mgmt := rfl
@[simp] theorem State.withHost_mem (v : HostPath) : (s.withHost v).mem = s.mem := rfl
@[simp] theorem State.withHost_pending (v : HostPath) : (s.withHost v).pending = s.pending := rfl
@[simp] theorem State.withHost_moments (v : HostPath) : (s.withHost v).moments = s.moments := rfl
@[simp] theorem State.withHost_withHost (v w : HostPath) : (s.withHost v).withHost w = s.withHost w := rfl
@[simp] theorem State.withHost_self : s.withHost s.host = s := rfl

/-! ## withWindows -/

@[simp] theorem State.withWindows_resetN (v : Vector Window 16) : (s.withWindows v).resetN = s.resetN := rfl
@[simp] theorem State.withWindows_host (v : Vector Window 16) : (s.withWindows v).host = s.host := rfl
@[simp] theorem State.withWindows_windows (v : Vector Window 16) : (s.withWindows v).windows = v := rfl
@[simp] theorem State.withWindows_pq (v : Vector Window 16) : (s.withWindows v).pq = s.pq := rfl
@[simp] theorem State.withWindows_orig (v : Vector Window 16) : (s.withWindows v).orig = s.orig := rfl
@[simp] theorem State.withWindows_link (v : Vector Window 16) : (s.withWindows v).link = s.link := rfl
@[simp] theorem State.withWindows_out (v : Vector Window 16) : (s.withWindows v).out = s.out := rfl
@[simp] theorem State.withWindows_sources (v : Vector Window 16) : (s.withWindows v).sources = s.sources := rfl
@[simp] theorem State.withWindows_aq (v : Vector Window 16) : (s.withWindows v).aq = s.aq := rfl
@[simp] theorem State.withWindows_arb (v : Vector Window 16) : (s.withWindows v).arb = s.arb := rfl
@[simp] theorem State.withWindows_node (v : Vector Window 16) : (s.withWindows v).node = s.node := rfl
@[simp] theorem State.withWindows_attn (v : Vector Window 16) : (s.withWindows v).attn = s.attn := rfl
@[simp] theorem State.withWindows_mgmt (v : Vector Window 16) : (s.withWindows v).mgmt = s.mgmt := rfl
@[simp] theorem State.withWindows_mem (v : Vector Window 16) : (s.withWindows v).mem = s.mem := rfl
@[simp] theorem State.withWindows_pending (v : Vector Window 16) : (s.withWindows v).pending = s.pending := rfl
@[simp] theorem State.withWindows_moments (v : Vector Window 16) : (s.withWindows v).moments = s.moments := rfl
@[simp] theorem State.withWindows_withWindows (v w : Vector Window 16) : (s.withWindows v).withWindows w = s.withWindows w := rfl
@[simp] theorem State.withWindows_self : s.withWindows s.windows = s := rfl

/-! ## withPq -/

@[simp] theorem State.withPq_resetN (v : PublishQueue) : (s.withPq v).resetN = s.resetN := rfl
@[simp] theorem State.withPq_host (v : PublishQueue) : (s.withPq v).host = s.host := rfl
@[simp] theorem State.withPq_windows (v : PublishQueue) : (s.withPq v).windows = s.windows := rfl
@[simp] theorem State.withPq_pq (v : PublishQueue) : (s.withPq v).pq = v := rfl
@[simp] theorem State.withPq_orig (v : PublishQueue) : (s.withPq v).orig = s.orig := rfl
@[simp] theorem State.withPq_link (v : PublishQueue) : (s.withPq v).link = s.link := rfl
@[simp] theorem State.withPq_out (v : PublishQueue) : (s.withPq v).out = s.out := rfl
@[simp] theorem State.withPq_sources (v : PublishQueue) : (s.withPq v).sources = s.sources := rfl
@[simp] theorem State.withPq_aq (v : PublishQueue) : (s.withPq v).aq = s.aq := rfl
@[simp] theorem State.withPq_arb (v : PublishQueue) : (s.withPq v).arb = s.arb := rfl
@[simp] theorem State.withPq_node (v : PublishQueue) : (s.withPq v).node = s.node := rfl
@[simp] theorem State.withPq_attn (v : PublishQueue) : (s.withPq v).attn = s.attn := rfl
@[simp] theorem State.withPq_mgmt (v : PublishQueue) : (s.withPq v).mgmt = s.mgmt := rfl
@[simp] theorem State.withPq_mem (v : PublishQueue) : (s.withPq v).mem = s.mem := rfl
@[simp] theorem State.withPq_pending (v : PublishQueue) : (s.withPq v).pending = s.pending := rfl
@[simp] theorem State.withPq_moments (v : PublishQueue) : (s.withPq v).moments = s.moments := rfl
@[simp] theorem State.withPq_withPq (v w : PublishQueue) : (s.withPq v).withPq w = s.withPq w := rfl
@[simp] theorem State.withPq_self : s.withPq s.pq = s := rfl

/-! ## withOrig -/

@[simp] theorem State.withOrig_resetN (v : Origination) : (s.withOrig v).resetN = s.resetN := rfl
@[simp] theorem State.withOrig_host (v : Origination) : (s.withOrig v).host = s.host := rfl
@[simp] theorem State.withOrig_windows (v : Origination) : (s.withOrig v).windows = s.windows := rfl
@[simp] theorem State.withOrig_pq (v : Origination) : (s.withOrig v).pq = s.pq := rfl
@[simp] theorem State.withOrig_orig (v : Origination) : (s.withOrig v).orig = v := rfl
@[simp] theorem State.withOrig_link (v : Origination) : (s.withOrig v).link = s.link := rfl
@[simp] theorem State.withOrig_out (v : Origination) : (s.withOrig v).out = s.out := rfl
@[simp] theorem State.withOrig_sources (v : Origination) : (s.withOrig v).sources = s.sources := rfl
@[simp] theorem State.withOrig_aq (v : Origination) : (s.withOrig v).aq = s.aq := rfl
@[simp] theorem State.withOrig_arb (v : Origination) : (s.withOrig v).arb = s.arb := rfl
@[simp] theorem State.withOrig_node (v : Origination) : (s.withOrig v).node = s.node := rfl
@[simp] theorem State.withOrig_attn (v : Origination) : (s.withOrig v).attn = s.attn := rfl
@[simp] theorem State.withOrig_mgmt (v : Origination) : (s.withOrig v).mgmt = s.mgmt := rfl
@[simp] theorem State.withOrig_mem (v : Origination) : (s.withOrig v).mem = s.mem := rfl
@[simp] theorem State.withOrig_pending (v : Origination) : (s.withOrig v).pending = s.pending := rfl
@[simp] theorem State.withOrig_moments (v : Origination) : (s.withOrig v).moments = s.moments := rfl
@[simp] theorem State.withOrig_withOrig (v w : Origination) : (s.withOrig v).withOrig w = s.withOrig w := rfl
@[simp] theorem State.withOrig_self : s.withOrig s.orig = s := rfl

/-! ## withLink -/

@[simp] theorem State.withLink_resetN (v : LinkInterface) : (s.withLink v).resetN = s.resetN := rfl
@[simp] theorem State.withLink_host (v : LinkInterface) : (s.withLink v).host = s.host := rfl
@[simp] theorem State.withLink_windows (v : LinkInterface) : (s.withLink v).windows = s.windows := rfl
@[simp] theorem State.withLink_pq (v : LinkInterface) : (s.withLink v).pq = s.pq := rfl
@[simp] theorem State.withLink_orig (v : LinkInterface) : (s.withLink v).orig = s.orig := rfl
@[simp] theorem State.withLink_link (v : LinkInterface) : (s.withLink v).link = v := rfl
@[simp] theorem State.withLink_out (v : LinkInterface) : (s.withLink v).out = s.out := rfl
@[simp] theorem State.withLink_sources (v : LinkInterface) : (s.withLink v).sources = s.sources := rfl
@[simp] theorem State.withLink_aq (v : LinkInterface) : (s.withLink v).aq = s.aq := rfl
@[simp] theorem State.withLink_arb (v : LinkInterface) : (s.withLink v).arb = s.arb := rfl
@[simp] theorem State.withLink_node (v : LinkInterface) : (s.withLink v).node = s.node := rfl
@[simp] theorem State.withLink_attn (v : LinkInterface) : (s.withLink v).attn = s.attn := rfl
@[simp] theorem State.withLink_mgmt (v : LinkInterface) : (s.withLink v).mgmt = s.mgmt := rfl
@[simp] theorem State.withLink_mem (v : LinkInterface) : (s.withLink v).mem = s.mem := rfl
@[simp] theorem State.withLink_pending (v : LinkInterface) : (s.withLink v).pending = s.pending := rfl
@[simp] theorem State.withLink_moments (v : LinkInterface) : (s.withLink v).moments = s.moments := rfl
@[simp] theorem State.withLink_withLink (v w : LinkInterface) : (s.withLink v).withLink w = s.withLink w := rfl
@[simp] theorem State.withLink_self : s.withLink s.link = s := rfl

/-! ## withOut -/

@[simp] theorem State.withOut_resetN (v : OutputArbiter) : (s.withOut v).resetN = s.resetN := rfl
@[simp] theorem State.withOut_host (v : OutputArbiter) : (s.withOut v).host = s.host := rfl
@[simp] theorem State.withOut_windows (v : OutputArbiter) : (s.withOut v).windows = s.windows := rfl
@[simp] theorem State.withOut_pq (v : OutputArbiter) : (s.withOut v).pq = s.pq := rfl
@[simp] theorem State.withOut_orig (v : OutputArbiter) : (s.withOut v).orig = s.orig := rfl
@[simp] theorem State.withOut_link (v : OutputArbiter) : (s.withOut v).link = s.link := rfl
@[simp] theorem State.withOut_out (v : OutputArbiter) : (s.withOut v).out = v := rfl
@[simp] theorem State.withOut_sources (v : OutputArbiter) : (s.withOut v).sources = s.sources := rfl
@[simp] theorem State.withOut_aq (v : OutputArbiter) : (s.withOut v).aq = s.aq := rfl
@[simp] theorem State.withOut_arb (v : OutputArbiter) : (s.withOut v).arb = s.arb := rfl
@[simp] theorem State.withOut_node (v : OutputArbiter) : (s.withOut v).node = s.node := rfl
@[simp] theorem State.withOut_attn (v : OutputArbiter) : (s.withOut v).attn = s.attn := rfl
@[simp] theorem State.withOut_mgmt (v : OutputArbiter) : (s.withOut v).mgmt = s.mgmt := rfl
@[simp] theorem State.withOut_mem (v : OutputArbiter) : (s.withOut v).mem = s.mem := rfl
@[simp] theorem State.withOut_pending (v : OutputArbiter) : (s.withOut v).pending = s.pending := rfl
@[simp] theorem State.withOut_moments (v : OutputArbiter) : (s.withOut v).moments = s.moments := rfl
@[simp] theorem State.withOut_withOut (v w : OutputArbiter) : (s.withOut v).withOut w = s.withOut w := rfl
@[simp] theorem State.withOut_self : s.withOut s.out = s := rfl

/-! ## withSources -/

@[simp] theorem State.withSources_resetN (v : Vector SeqEntry 16) : (s.withSources v).resetN = s.resetN := rfl
@[simp] theorem State.withSources_host (v : Vector SeqEntry 16) : (s.withSources v).host = s.host := rfl
@[simp] theorem State.withSources_windows (v : Vector SeqEntry 16) : (s.withSources v).windows = s.windows := rfl
@[simp] theorem State.withSources_pq (v : Vector SeqEntry 16) : (s.withSources v).pq = s.pq := rfl
@[simp] theorem State.withSources_orig (v : Vector SeqEntry 16) : (s.withSources v).orig = s.orig := rfl
@[simp] theorem State.withSources_link (v : Vector SeqEntry 16) : (s.withSources v).link = s.link := rfl
@[simp] theorem State.withSources_out (v : Vector SeqEntry 16) : (s.withSources v).out = s.out := rfl
@[simp] theorem State.withSources_sources (v : Vector SeqEntry 16) : (s.withSources v).sources = v := rfl
@[simp] theorem State.withSources_aq (v : Vector SeqEntry 16) : (s.withSources v).aq = s.aq := rfl
@[simp] theorem State.withSources_arb (v : Vector SeqEntry 16) : (s.withSources v).arb = s.arb := rfl
@[simp] theorem State.withSources_node (v : Vector SeqEntry 16) : (s.withSources v).node = s.node := rfl
@[simp] theorem State.withSources_attn (v : Vector SeqEntry 16) : (s.withSources v).attn = s.attn := rfl
@[simp] theorem State.withSources_mgmt (v : Vector SeqEntry 16) : (s.withSources v).mgmt = s.mgmt := rfl
@[simp] theorem State.withSources_mem (v : Vector SeqEntry 16) : (s.withSources v).mem = s.mem := rfl
@[simp] theorem State.withSources_pending (v : Vector SeqEntry 16) : (s.withSources v).pending = s.pending := rfl
@[simp] theorem State.withSources_moments (v : Vector SeqEntry 16) : (s.withSources v).moments = s.moments := rfl
@[simp] theorem State.withSources_withSources (v w : Vector SeqEntry 16) : (s.withSources v).withSources w = s.withSources w := rfl
@[simp] theorem State.withSources_self : s.withSources s.sources = s := rfl

/-! ## withAq -/

@[simp] theorem State.withAq_resetN (v : ApplyQueue) : (s.withAq v).resetN = s.resetN := rfl
@[simp] theorem State.withAq_host (v : ApplyQueue) : (s.withAq v).host = s.host := rfl
@[simp] theorem State.withAq_windows (v : ApplyQueue) : (s.withAq v).windows = s.windows := rfl
@[simp] theorem State.withAq_pq (v : ApplyQueue) : (s.withAq v).pq = s.pq := rfl
@[simp] theorem State.withAq_orig (v : ApplyQueue) : (s.withAq v).orig = s.orig := rfl
@[simp] theorem State.withAq_link (v : ApplyQueue) : (s.withAq v).link = s.link := rfl
@[simp] theorem State.withAq_out (v : ApplyQueue) : (s.withAq v).out = s.out := rfl
@[simp] theorem State.withAq_sources (v : ApplyQueue) : (s.withAq v).sources = s.sources := rfl
@[simp] theorem State.withAq_aq (v : ApplyQueue) : (s.withAq v).aq = v := rfl
@[simp] theorem State.withAq_arb (v : ApplyQueue) : (s.withAq v).arb = s.arb := rfl
@[simp] theorem State.withAq_node (v : ApplyQueue) : (s.withAq v).node = s.node := rfl
@[simp] theorem State.withAq_attn (v : ApplyQueue) : (s.withAq v).attn = s.attn := rfl
@[simp] theorem State.withAq_mgmt (v : ApplyQueue) : (s.withAq v).mgmt = s.mgmt := rfl
@[simp] theorem State.withAq_mem (v : ApplyQueue) : (s.withAq v).mem = s.mem := rfl
@[simp] theorem State.withAq_pending (v : ApplyQueue) : (s.withAq v).pending = s.pending := rfl
@[simp] theorem State.withAq_moments (v : ApplyQueue) : (s.withAq v).moments = s.moments := rfl
@[simp] theorem State.withAq_withAq (v w : ApplyQueue) : (s.withAq v).withAq w = s.withAq w := rfl
@[simp] theorem State.withAq_self : s.withAq s.aq = s := rfl

/-! ## withArb -/

@[simp] theorem State.withArb_resetN (v : MemoryArbiter) : (s.withArb v).resetN = s.resetN := rfl
@[simp] theorem State.withArb_host (v : MemoryArbiter) : (s.withArb v).host = s.host := rfl
@[simp] theorem State.withArb_windows (v : MemoryArbiter) : (s.withArb v).windows = s.windows := rfl
@[simp] theorem State.withArb_pq (v : MemoryArbiter) : (s.withArb v).pq = s.pq := rfl
@[simp] theorem State.withArb_orig (v : MemoryArbiter) : (s.withArb v).orig = s.orig := rfl
@[simp] theorem State.withArb_link (v : MemoryArbiter) : (s.withArb v).link = s.link := rfl
@[simp] theorem State.withArb_out (v : MemoryArbiter) : (s.withArb v).out = s.out := rfl
@[simp] theorem State.withArb_sources (v : MemoryArbiter) : (s.withArb v).sources = s.sources := rfl
@[simp] theorem State.withArb_aq (v : MemoryArbiter) : (s.withArb v).aq = s.aq := rfl
@[simp] theorem State.withArb_arb (v : MemoryArbiter) : (s.withArb v).arb = v := rfl
@[simp] theorem State.withArb_node (v : MemoryArbiter) : (s.withArb v).node = s.node := rfl
@[simp] theorem State.withArb_attn (v : MemoryArbiter) : (s.withArb v).attn = s.attn := rfl
@[simp] theorem State.withArb_mgmt (v : MemoryArbiter) : (s.withArb v).mgmt = s.mgmt := rfl
@[simp] theorem State.withArb_mem (v : MemoryArbiter) : (s.withArb v).mem = s.mem := rfl
@[simp] theorem State.withArb_pending (v : MemoryArbiter) : (s.withArb v).pending = s.pending := rfl
@[simp] theorem State.withArb_moments (v : MemoryArbiter) : (s.withArb v).moments = s.moments := rfl
@[simp] theorem State.withArb_withArb (v w : MemoryArbiter) : (s.withArb v).withArb w = s.withArb w := rfl
@[simp] theorem State.withArb_self : s.withArb s.arb = s := rfl

/-! ## withNode -/

@[simp] theorem State.withNode_resetN (v : NodeControl) : (s.withNode v).resetN = s.resetN := rfl
@[simp] theorem State.withNode_host (v : NodeControl) : (s.withNode v).host = s.host := rfl
@[simp] theorem State.withNode_windows (v : NodeControl) : (s.withNode v).windows = s.windows := rfl
@[simp] theorem State.withNode_pq (v : NodeControl) : (s.withNode v).pq = s.pq := rfl
@[simp] theorem State.withNode_orig (v : NodeControl) : (s.withNode v).orig = s.orig := rfl
@[simp] theorem State.withNode_link (v : NodeControl) : (s.withNode v).link = s.link := rfl
@[simp] theorem State.withNode_out (v : NodeControl) : (s.withNode v).out = s.out := rfl
@[simp] theorem State.withNode_sources (v : NodeControl) : (s.withNode v).sources = s.sources := rfl
@[simp] theorem State.withNode_aq (v : NodeControl) : (s.withNode v).aq = s.aq := rfl
@[simp] theorem State.withNode_arb (v : NodeControl) : (s.withNode v).arb = s.arb := rfl
@[simp] theorem State.withNode_node (v : NodeControl) : (s.withNode v).node = v := rfl
@[simp] theorem State.withNode_attn (v : NodeControl) : (s.withNode v).attn = s.attn := rfl
@[simp] theorem State.withNode_mgmt (v : NodeControl) : (s.withNode v).mgmt = s.mgmt := rfl
@[simp] theorem State.withNode_mem (v : NodeControl) : (s.withNode v).mem = s.mem := rfl
@[simp] theorem State.withNode_pending (v : NodeControl) : (s.withNode v).pending = s.pending := rfl
@[simp] theorem State.withNode_moments (v : NodeControl) : (s.withNode v).moments = s.moments := rfl
@[simp] theorem State.withNode_withNode (v w : NodeControl) : (s.withNode v).withNode w = s.withNode w := rfl
@[simp] theorem State.withNode_self : s.withNode s.node = s := rfl

/-! ## withAttn -/

@[simp] theorem State.withAttn_resetN (v : Attention) : (s.withAttn v).resetN = s.resetN := rfl
@[simp] theorem State.withAttn_host (v : Attention) : (s.withAttn v).host = s.host := rfl
@[simp] theorem State.withAttn_windows (v : Attention) : (s.withAttn v).windows = s.windows := rfl
@[simp] theorem State.withAttn_pq (v : Attention) : (s.withAttn v).pq = s.pq := rfl
@[simp] theorem State.withAttn_orig (v : Attention) : (s.withAttn v).orig = s.orig := rfl
@[simp] theorem State.withAttn_link (v : Attention) : (s.withAttn v).link = s.link := rfl
@[simp] theorem State.withAttn_out (v : Attention) : (s.withAttn v).out = s.out := rfl
@[simp] theorem State.withAttn_sources (v : Attention) : (s.withAttn v).sources = s.sources := rfl
@[simp] theorem State.withAttn_aq (v : Attention) : (s.withAttn v).aq = s.aq := rfl
@[simp] theorem State.withAttn_arb (v : Attention) : (s.withAttn v).arb = s.arb := rfl
@[simp] theorem State.withAttn_node (v : Attention) : (s.withAttn v).node = s.node := rfl
@[simp] theorem State.withAttn_attn (v : Attention) : (s.withAttn v).attn = v := rfl
@[simp] theorem State.withAttn_mgmt (v : Attention) : (s.withAttn v).mgmt = s.mgmt := rfl
@[simp] theorem State.withAttn_mem (v : Attention) : (s.withAttn v).mem = s.mem := rfl
@[simp] theorem State.withAttn_pending (v : Attention) : (s.withAttn v).pending = s.pending := rfl
@[simp] theorem State.withAttn_moments (v : Attention) : (s.withAttn v).moments = s.moments := rfl
@[simp] theorem State.withAttn_withAttn (v w : Attention) : (s.withAttn v).withAttn w = s.withAttn w := rfl
@[simp] theorem State.withAttn_self : s.withAttn s.attn = s := rfl

/-! ## withMgmt -/

@[simp] theorem State.withMgmt_resetN (v : ManagementPort) : (s.withMgmt v).resetN = s.resetN := rfl
@[simp] theorem State.withMgmt_host (v : ManagementPort) : (s.withMgmt v).host = s.host := rfl
@[simp] theorem State.withMgmt_windows (v : ManagementPort) : (s.withMgmt v).windows = s.windows := rfl
@[simp] theorem State.withMgmt_pq (v : ManagementPort) : (s.withMgmt v).pq = s.pq := rfl
@[simp] theorem State.withMgmt_orig (v : ManagementPort) : (s.withMgmt v).orig = s.orig := rfl
@[simp] theorem State.withMgmt_link (v : ManagementPort) : (s.withMgmt v).link = s.link := rfl
@[simp] theorem State.withMgmt_out (v : ManagementPort) : (s.withMgmt v).out = s.out := rfl
@[simp] theorem State.withMgmt_sources (v : ManagementPort) : (s.withMgmt v).sources = s.sources := rfl
@[simp] theorem State.withMgmt_aq (v : ManagementPort) : (s.withMgmt v).aq = s.aq := rfl
@[simp] theorem State.withMgmt_arb (v : ManagementPort) : (s.withMgmt v).arb = s.arb := rfl
@[simp] theorem State.withMgmt_node (v : ManagementPort) : (s.withMgmt v).node = s.node := rfl
@[simp] theorem State.withMgmt_attn (v : ManagementPort) : (s.withMgmt v).attn = s.attn := rfl
@[simp] theorem State.withMgmt_mgmt (v : ManagementPort) : (s.withMgmt v).mgmt = v := rfl
@[simp] theorem State.withMgmt_mem (v : ManagementPort) : (s.withMgmt v).mem = s.mem := rfl
@[simp] theorem State.withMgmt_pending (v : ManagementPort) : (s.withMgmt v).pending = s.pending := rfl
@[simp] theorem State.withMgmt_moments (v : ManagementPort) : (s.withMgmt v).moments = s.moments := rfl
@[simp] theorem State.withMgmt_withMgmt (v w : ManagementPort) : (s.withMgmt v).withMgmt w = s.withMgmt w := rfl
@[simp] theorem State.withMgmt_self : s.withMgmt s.mgmt = s := rfl

/-! ## withMem -/

@[simp] theorem State.withMem_resetN (v : Memory) : (s.withMem v).resetN = s.resetN := rfl
@[simp] theorem State.withMem_host (v : Memory) : (s.withMem v).host = s.host := rfl
@[simp] theorem State.withMem_windows (v : Memory) : (s.withMem v).windows = s.windows := rfl
@[simp] theorem State.withMem_pq (v : Memory) : (s.withMem v).pq = s.pq := rfl
@[simp] theorem State.withMem_orig (v : Memory) : (s.withMem v).orig = s.orig := rfl
@[simp] theorem State.withMem_link (v : Memory) : (s.withMem v).link = s.link := rfl
@[simp] theorem State.withMem_out (v : Memory) : (s.withMem v).out = s.out := rfl
@[simp] theorem State.withMem_sources (v : Memory) : (s.withMem v).sources = s.sources := rfl
@[simp] theorem State.withMem_aq (v : Memory) : (s.withMem v).aq = s.aq := rfl
@[simp] theorem State.withMem_arb (v : Memory) : (s.withMem v).arb = s.arb := rfl
@[simp] theorem State.withMem_node (v : Memory) : (s.withMem v).node = s.node := rfl
@[simp] theorem State.withMem_attn (v : Memory) : (s.withMem v).attn = s.attn := rfl
@[simp] theorem State.withMem_mgmt (v : Memory) : (s.withMem v).mgmt = s.mgmt := rfl
@[simp] theorem State.withMem_mem (v : Memory) : (s.withMem v).mem = v := rfl
@[simp] theorem State.withMem_pending (v : Memory) : (s.withMem v).pending = s.pending := rfl
@[simp] theorem State.withMem_moments (v : Memory) : (s.withMem v).moments = s.moments := rfl
@[simp] theorem State.withMem_withMem (v w : Memory) : (s.withMem v).withMem w = s.withMem w := rfl
@[simp] theorem State.withMem_self : s.withMem s.mem = s := rfl

/-! ## withPending -/

@[simp] theorem State.withPending_resetN (v : List Instr) : (s.withPending v).resetN = s.resetN := rfl
@[simp] theorem State.withPending_host (v : List Instr) : (s.withPending v).host = s.host := rfl
@[simp] theorem State.withPending_windows (v : List Instr) : (s.withPending v).windows = s.windows := rfl
@[simp] theorem State.withPending_pq (v : List Instr) : (s.withPending v).pq = s.pq := rfl
@[simp] theorem State.withPending_orig (v : List Instr) : (s.withPending v).orig = s.orig := rfl
@[simp] theorem State.withPending_link (v : List Instr) : (s.withPending v).link = s.link := rfl
@[simp] theorem State.withPending_out (v : List Instr) : (s.withPending v).out = s.out := rfl
@[simp] theorem State.withPending_sources (v : List Instr) : (s.withPending v).sources = s.sources := rfl
@[simp] theorem State.withPending_aq (v : List Instr) : (s.withPending v).aq = s.aq := rfl
@[simp] theorem State.withPending_arb (v : List Instr) : (s.withPending v).arb = s.arb := rfl
@[simp] theorem State.withPending_node (v : List Instr) : (s.withPending v).node = s.node := rfl
@[simp] theorem State.withPending_attn (v : List Instr) : (s.withPending v).attn = s.attn := rfl
@[simp] theorem State.withPending_mgmt (v : List Instr) : (s.withPending v).mgmt = s.mgmt := rfl
@[simp] theorem State.withPending_mem (v : List Instr) : (s.withPending v).mem = s.mem := rfl
@[simp] theorem State.withPending_pending (v : List Instr) : (s.withPending v).pending = v := rfl
@[simp] theorem State.withPending_moments (v : List Instr) : (s.withPending v).moments = s.moments := rfl
@[simp] theorem State.withPending_withPending (v w : List Instr) : (s.withPending v).withPending w = s.withPending w := rfl
@[simp] theorem State.withPending_self : s.withPending s.pending = s := rfl

/-! ## withMoments -/

@[simp] theorem State.withMoments_resetN (v : List Nat) : (s.withMoments v).resetN = s.resetN := rfl
@[simp] theorem State.withMoments_host (v : List Nat) : (s.withMoments v).host = s.host := rfl
@[simp] theorem State.withMoments_windows (v : List Nat) : (s.withMoments v).windows = s.windows := rfl
@[simp] theorem State.withMoments_pq (v : List Nat) : (s.withMoments v).pq = s.pq := rfl
@[simp] theorem State.withMoments_orig (v : List Nat) : (s.withMoments v).orig = s.orig := rfl
@[simp] theorem State.withMoments_link (v : List Nat) : (s.withMoments v).link = s.link := rfl
@[simp] theorem State.withMoments_out (v : List Nat) : (s.withMoments v).out = s.out := rfl
@[simp] theorem State.withMoments_sources (v : List Nat) : (s.withMoments v).sources = s.sources := rfl
@[simp] theorem State.withMoments_aq (v : List Nat) : (s.withMoments v).aq = s.aq := rfl
@[simp] theorem State.withMoments_arb (v : List Nat) : (s.withMoments v).arb = s.arb := rfl
@[simp] theorem State.withMoments_node (v : List Nat) : (s.withMoments v).node = s.node := rfl
@[simp] theorem State.withMoments_attn (v : List Nat) : (s.withMoments v).attn = s.attn := rfl
@[simp] theorem State.withMoments_mgmt (v : List Nat) : (s.withMoments v).mgmt = s.mgmt := rfl
@[simp] theorem State.withMoments_mem (v : List Nat) : (s.withMoments v).mem = s.mem := rfl
@[simp] theorem State.withMoments_pending (v : List Nat) : (s.withMoments v).pending = s.pending := rfl
@[simp] theorem State.withMoments_moments (v : List Nat) : (s.withMoments v).moments = v := rfl
@[simp] theorem State.withMoments_withMoments (v w : List Nat) : (s.withMoments v).withMoments w = s.withMoments w := rfl
@[simp] theorem State.withMoments_self : s.withMoments s.moments = s := rfl

/-! ## Events -/

@[simp] theorem Event.begin_toState : (Event.begin s).toState = s := rfl
@[simp] theorem Event.begin_raised : (Event.begin s).raised = [] := rfl
@[simp] theorem Event.on_toState (f : State → State) : (e.on f).toState = f e.toState := rfl
@[simp] theorem Event.on_raised (f : State → State) : (e.on f).raised = e.raised := rfl
@[simp] theorem Event.raise_toState (o : Occurrence) : (e.raise o).toState = e.toState := rfl
@[simp] theorem Event.raise_raised (o : Occurrence) : (e.raise o).raised = e.raised ++ [o] := rfl
theorem Event.on_on (f g : State → State) : (e.on f).on g = e.on (g ∘ f) := rfl

end Sys2Proof.Machine
end

