-- ==== Sys2Proof/Laws/Events.lean ====
section
/-! SUPPORT. What the shared operations of an event can do: window-flag requests, incidents, the arbiters' choices and
the end of an event. Each lemma says once which fields an operation leaves and what it makes of the others. -/

namespace Sys2Proof.Machine

/-! ## Incidents and the commitment of causes (R162, R163, R166) -/

section Incidents

variable (s : State) (o : Occurrence)

/-- An incident changes the Attention Unit, and of the Management Port at most the drop flag. -/
theorem appendIncident_eq : ∃ a m, appendIncident s o = (s.withAttn a).withMgmt m ∧
    a.enableSet = s.attn.enableSet ∧ a.raisedSet = s.attn.raisedSet ||| causeBit o ∧
    m = { s.mgmt with txn := { s.mgmt.txn with dropFlag := m.txn.dropFlag } } := by
  unfold appendIncident
  dsimp only
  split
  · exact ⟨{ s.attn with raisedSet := s.attn.raisedSet ||| causeBit o
                         queue := s.attn.queue ++ [{ what := o, time := s.node.timebase }] }, s.mgmt, rfl, rfl, rfl, rfl⟩
  · exact ⟨{ s.attn with raisedSet := s.attn.raisedSet ||| causeBit o, overflow := true },
      { s.mgmt with txn := { s.mgmt.txn with dropFlag := s.mgmt.txn.dropFlag || s.mgmt.txn.removal.isSome } },
      rfl, rfl, rfl, rfl⟩

@[simp] theorem appendIncident_resetN : (appendIncident s o).resetN = s.resetN := by
  obtain ⟨a, m, h, -⟩ := appendIncident_eq s o; rw [h]; rfl
@[simp] theorem appendIncident_host : (appendIncident s o).host = s.host := by
  obtain ⟨a, m, h, -⟩ := appendIncident_eq s o; rw [h]; rfl
@[simp] theorem appendIncident_windows : (appendIncident s o).windows = s.windows := by
  obtain ⟨a, m, h, -⟩ := appendIncident_eq s o; rw [h]; rfl
@[simp] theorem appendIncident_pq : (appendIncident s o).pq = s.pq := by
  obtain ⟨a, m, h, -⟩ := appendIncident_eq s o; rw [h]; rfl
@[simp] theorem appendIncident_orig : (appendIncident s o).orig = s.orig := by
  obtain ⟨a, m, h, -⟩ := appendIncident_eq s o; rw [h]; rfl
@[simp] theorem appendIncident_link : (appendIncident s o).link = s.link := by
  obtain ⟨a, m, h, -⟩ := appendIncident_eq s o; rw [h]; rfl
@[simp] theorem appendIncident_out : (appendIncident s o).out = s.out := by
  obtain ⟨a, m, h, -⟩ := appendIncident_eq s o; rw [h]; rfl
@[simp] theorem appendIncident_sources : (appendIncident s o).sources = s.sources := by
  obtain ⟨a, m, h, -⟩ := appendIncident_eq s o; rw [h]; rfl
@[simp] theorem appendIncident_aq : (appendIncident s o).aq = s.aq := by
  obtain ⟨a, m, h, -⟩ := appendIncident_eq s o; rw [h]; rfl
@[simp] theorem appendIncident_arb : (appendIncident s o).arb = s.arb := by
  obtain ⟨a, m, h, -⟩ := appendIncident_eq s o; rw [h]; rfl
@[simp] theorem appendIncident_node : (appendIncident s o).node = s.node := by
  obtain ⟨a, m, h, -⟩ := appendIncident_eq s o; rw [h]; rfl
@[simp] theorem appendIncident_mem : (appendIncident s o).mem = s.mem := by
  obtain ⟨a, m, h, -⟩ := appendIncident_eq s o; rw [h]; rfl
@[simp] theorem appendIncident_pending : (appendIncident s o).pending = s.pending := by
  obtain ⟨a, m, h, -⟩ := appendIncident_eq s o; rw [h]; rfl
@[simp] theorem appendIncident_moments : (appendIncident s o).moments = s.moments := by
  obtain ⟨a, m, h, -⟩ := appendIncident_eq s o; rw [h]; rfl

/-- The cause of an incident is pending afterwards, and no pending cause is lost. -/
theorem appendIncident_raisedSet : (appendIncident s o).attn.raisedSet = s.attn.raisedSet ||| causeBit o := by
  obtain ⟨a, m, h, -, hr, -⟩ := appendIncident_eq s o; rw [h]; exact hr

@[simp] theorem appendIncident_enableSet : (appendIncident s o).attn.enableSet = s.attn.enableSet := by
  obtain ⟨a, m, h, he, -, -⟩ := appendIncident_eq s o; rw [h]; exact he

/-- The queue never grows past its capacity (R166). -/
theorem appendIncident_queue_length (h : s.attn.queue.length ≤ 8) : (appendIncident s o).attn.queue.length ≤ 8 := by
  unfold appendIncident
  dsimp only [Config.incidentCapacity]
  split
  · simp only [State.withAttn_attn, List.length_append, List.length_singleton]; omega
  · simpa using h

end Incidents

/-- Every list of causes put in rank order still holds the same causes. -/
theorem mem_insertByRank (o p : Occurrence) (os : List Occurrence) :
    p ∈ insertByRank o os ↔ p = o ∨ p ∈ os := by
  induction os with
  | nil => simp [insertByRank]
  | cons q os ih =>
    unfold insertByRank
    split
    · simp
    · simp [ih]; tauto

theorem mem_inRankOrder (p : Occurrence) (os : List Occurrence) : p ∈ inRankOrder os ↔ p ∈ os := by
  have key (os acc : List Occurrence) :
      p ∈ os.foldl (fun acc o => insertByRank o acc) acc ↔ p ∈ acc ∨ p ∈ os := by
    induction os generalizing acc with
    | nil => simp
    | cons o os ih => simp [ih, mem_insertByRank]; tauto
  simpa [inRankOrder] using key os []

@[simp] theorem inRankOrder_nil : inRankOrder [] = [] := rfl
@[simp] theorem inRankOrder_single (o : Occurrence) : inRankOrder [o] = [o] := rfl

/-- A property that every incident keeps is kept by the commitment of an event's causes. -/
theorem Event.commit_induct {motive : State → Prop} (e : Event) (base : motive e.toState)
    (incident : ∀ s o, motive s → motive (appendIncident s o)) : motive e.commit := by
  have key (os : List Occurrence) (s : State) (h : motive s) : motive (os.foldl appendIncident s) := by
    induction os generalizing s with
    | nil => exact h
    | cons o os ih => exact ih _ (incident _ _ h)
  unfold Event.commit
  split
  · exact key _ _ base
  · exact base

@[simp] theorem Event.commit_resetN (e : Event) : e.commit.resetN = e.resetN :=
  Event.commit_induct (motive := fun s => s.resetN = e.resetN) e rfl fun _ _ h => by simpa using h
@[simp] theorem Event.commit_host (e : Event) : e.commit.host = e.host :=
  Event.commit_induct (motive := fun s => s.host = e.host) e rfl fun _ _ h => by simpa using h
@[simp] theorem Event.commit_windows (e : Event) : e.commit.windows = e.windows :=
  Event.commit_induct (motive := fun s => s.windows = e.windows) e rfl fun _ _ h => by simpa using h
@[simp] theorem Event.commit_pq (e : Event) : e.commit.pq = e.pq :=
  Event.commit_induct (motive := fun s => s.pq = e.pq) e rfl fun _ _ h => by simpa using h
@[simp] theorem Event.commit_orig (e : Event) : e.commit.orig = e.orig :=
  Event.commit_induct (motive := fun s => s.orig = e.orig) e rfl fun _ _ h => by simpa using h
@[simp] theorem Event.commit_link (e : Event) : e.commit.link = e.link :=
  Event.commit_induct (motive := fun s => s.link = e.link) e rfl fun _ _ h => by simpa using h
@[simp] theorem Event.commit_out (e : Event) : e.commit.out = e.out :=
  Event.commit_induct (motive := fun s => s.out = e.out) e rfl fun _ _ h => by simpa using h
@[simp] theorem Event.commit_sources (e : Event) : e.commit.sources = e.sources :=
  Event.commit_induct (motive := fun s => s.sources = e.sources) e rfl fun _ _ h => by simpa using h
@[simp] theorem Event.commit_aq (e : Event) : e.commit.aq = e.aq :=
  Event.commit_induct (motive := fun s => s.aq = e.aq) e rfl fun _ _ h => by simpa using h
@[simp] theorem Event.commit_arb (e : Event) : e.commit.arb = e.arb :=
  Event.commit_induct (motive := fun s => s.arb = e.arb) e rfl fun _ _ h => by simpa using h
@[simp] theorem Event.commit_node (e : Event) : e.commit.node = e.node :=
  Event.commit_induct (motive := fun s => s.node = e.node) e rfl fun _ _ h => by simpa using h
@[simp] theorem Event.commit_mem (e : Event) : e.commit.mem = e.mem :=
  Event.commit_induct (motive := fun s => s.mem = e.mem) e rfl fun _ _ h => by simpa using h
@[simp] theorem Event.commit_pending (e : Event) : e.commit.pending = e.pending :=
  Event.commit_induct (motive := fun s => s.pending = e.pending) e rfl fun _ _ h => by simpa using h
@[simp] theorem Event.commit_moments (e : Event) : e.commit.moments = e.moments :=
  Event.commit_induct (motive := fun s => s.moments = e.moments) e rfl fun _ _ h => by simpa using h

/-- An event that raised nothing commits its state. -/
theorem Event.commit_of_nil (e : Event) (h : e.raised = []) : e.commit = e.toState := by
  unfold Event.commit
  split <;> simp [h]

/-- An event that raised one cause appends its incident. -/
theorem Event.commit_of_single (e : Event) (o : Occurrence) (hr : e.resetN = true) (h : e.raised = [o]) :
    e.commit = appendIncident e.toState o := by
  simp [Event.commit, hr, h]

/-! ## Window-flag requests (R21) -/

section Requests

variable (e : Event) (i : WinIdx)

/-- A DIVERGED request changes the flag of its window alone, and raises its cause exactly when it sets it. -/
theorem Event.requestDiverged_eq :
    e.requestDiverged i =
      if e.windows[i].kind = .owned ∧ e.windows[i].diverged = false then
        { toState := e.toState.withWindows (e.windows.set i { e.windows[i] with diverged := true })
          raised := e.raised ++ [.divergedMarked i] }
      else e := rfl

/-- A STALE request changes the flag of its window alone, and raises its cause exactly when it sets it. -/
theorem Event.requestStale_eq :
    e.requestStale i =
      if e.windows[i].kind = .mirror ∧ e.windows[i].stale = false then
        { toState := e.toState.withWindows (e.windows.set i { e.windows[i] with stale := true })
          raised := e.raised ++ [.staleMarked i] }
      else e := rfl

/-- A DIVERGED request leaves everything but the windows and the causes raised. -/
theorem Event.requestDiverged_toState : ∃ ws, (e.requestDiverged i).toState = e.toState.withWindows ws := by
  rw [Event.requestDiverged_eq]
  split
  · exact ⟨_, rfl⟩
  · exact ⟨e.windows, rfl⟩

theorem Event.requestStale_toState : ∃ ws, (e.requestStale i).toState = e.toState.withWindows ws := by
  rw [Event.requestStale_eq]
  split
  · exact ⟨_, rfl⟩
  · exact ⟨e.windows, rfl⟩

/-- Requests on several windows leave everything but the windows and the causes raised. -/
theorem Event.requestDivergedAll_toState (is : List WinIdx) :
    ∃ ws, (e.requestDivergedAll is).toState = e.toState.withWindows ws := by
  induction is generalizing e with
  | nil => exact ⟨e.windows, rfl⟩
  | cons i is ih =>
    obtain ⟨ws, h⟩ := ih (e.requestDiverged i)
    obtain ⟨vs, hv⟩ := e.requestDiverged_toState i
    exact ⟨ws, by rw [show e.requestDivergedAll (i :: is) = (e.requestDiverged i).requestDivergedAll is from rfl, h, hv,
      State.withWindows_withWindows]⟩

theorem Event.requestStaleAll_toState (is : List WinIdx) :
    ∃ ws, (e.requestStaleAll is).toState = e.toState.withWindows ws := by
  induction is generalizing e with
  | nil => exact ⟨e.windows, rfl⟩
  | cons i is ih =>
    obtain ⟨ws, h⟩ := ih (e.requestStale i)
    obtain ⟨vs, hv⟩ := e.requestStale_toState i
    exact ⟨ws, by rw [show e.requestStaleAll (i :: is) = (e.requestStale i).requestStaleAll is from rfl, h, hv,
      State.withWindows_withWindows]⟩

/-- After a DIVERGED request the flag of window j is as it was, or set because j is the window asked and OWNED. -/
theorem Event.requestDiverged_window (j : WinIdx) :
    (e.requestDiverged i).windows[j] =
      if i = j ∧ e.windows[j].kind = .owned then { e.windows[j] with diverged := true } else e.windows[j] := by
  rw [Event.requestDiverged_eq]
  simp only [Fin.getElem_fin]
  by_cases hij : i = j
  · subst hij
    by_cases hk : e.windows[i.val].kind = .owned
    · cases hd : e.windows[i.val].diverged
      · simp [hk]
      · have (w : Window) (hw : w.diverged = true) : w = { w with diverged := true } := by rw [← hw]
        simpa [hk] using this _ hd
    · simp [hk]
  · have hn : i.val ≠ j.val := fun h => hij (Fin.ext h)
    split <;> simp [hij, Vector.getElem_set_ne _ _ hn]

end Requests

/-! ## The arbiters' choices (R73, R133) -/

/-- A busy memory port makes no choice. -/
theorem arbitrate_of_busy (s : State) (h : s.arb.cycle.isSome = true) : arbitrate s = s := by
  unfold arbitrate
  cases hc : s.arb.cycle with
  | some c => rfl
  | none => simp [hc] at h

/-- A grant changes the memory port, the Host Path's path state and the head of the Apply Queue at most. -/
theorem arbitrate_eq (s : State) :
    ∃ a h q, arbitrate s = ((s.withArb a).withHost { s.host with path := h }).withAq { s.aq with entries := q } := by
  have self : s = ((s.withArb s.arb).withHost { s.host with path := s.host.path }).withAq
      { s.aq with entries := s.aq.entries } := rfl
  unfold arbitrate
  split
  · exact ⟨_, _, _, self⟩
  · split
    · next c _ =>
      unfold grantCycle
      dsimp only
      split
      · exact ⟨{ cycle := some c, lastGrant := c.grant }, .memory, s.aq.entries, rfl⟩
      · exact ⟨{ cycle := some c, lastGrant := c.grant }, s.host.path, markHeadWriting s.aq.entries, rfl⟩
    · exact ⟨_, _, _, self⟩

/-- A choice of the Output Arbiter raises no cause. -/
theorem Event.chooseOutput_raised (e : Event) : e.chooseOutput.raised = e.raised := by
  have offer (o : Offer) : (e.sendOffer o).raised = e.raised := by
    cases o with
    | announce r => rfl
    | resend f =>
      simp only [Event.sendOffer, Event.commitOffer]
      cases flightPosition e.orig.flight f.seq <;> rfl
    | fresh p =>
      simp only [Event.sendOffer, Event.commitOffer, Event.departEntry, Event.roomCheck, Event.on_raised]
      split
      · split <;> rfl
      · rfl
  unfold Event.chooseOutput
  split
  · rfl
  · split
    · exact offer _
    · rfl
    · split
      · exact offer _
      · rfl
    · rfl

/-- With an idle link that has nothing to choose, and a free port without requests or a busy one, nothing is chosen. -/
theorem choices_of_chosen {s : State} (h : Chosen s) : choices s = s := by
  obtain ⟨ho, ha⟩ := h
  have h1 : (Event.begin s).chooseOutput = Event.begin s := by
    unfold Event.chooseOutput
    split
    · rfl
    · next hn =>
      have hs : s.out.sending = none := by
        cases hs : s.out.sending with
        | none => rfl
        | some f => simp [hs] at hn
      have hl : s.link.outbound = .running := by
        cases hl : s.link.outbound with
        | running => rfl
        | quiet => simp [hl] at hn
      obtain ⟨hf, hoff⟩ := ho hs hl
      simp [hf, hoff]
  have h2 : arbitrate s = s := by
    cases hc : s.arb.cycle with
    | some c => exact arbitrate_of_busy _ (by simp [hc])
    | none =>
      obtain ⟨hh, hq⟩ := ha hc
      simp [arbitrate, hc, arbiterChoice, hh, applyRequest, hq]
  rw [choices, h1, Event.begin_toState, h2]

/-! ## Moments and choices -/

/-- A grant does not look at how events fall on moments. -/
theorem arbitrate_withMoments (s : State) (m : List Nat) :
    arbitrate (s.withMoments m) = (arbitrate s).withMoments m := by
  have ha : arbiterChoice (s.withMoments m) = arbiterChoice s := rfl
  unfold arbitrate
  rw [ha, State.withMoments_arb]
  cases s.arb.cycle with
  | some c => rfl
  | none => cases arbiterChoice s with
    | none => rfl
    | some c => cases hg : c.grant <;> simp [grantCycle, hg] <;> rfl

theorem Event.roomCheck_withMoments (s : State) (m : List Nat) :
    (Event.begin (s.withMoments m)).roomCheck.toState = (Event.begin s).roomCheck.toState.withMoments m := by
  unfold Event.roomCheck
  simp only [Event.begin_toState, State.withMoments_pq, State.withMoments_host]
  cases s.pq.held with
  | none => rfl
  | some r =>
    dsimp only
    by_cases h : s.host.hold = .publishHold ∧ s.pq.hasRoom r.cls = true
    · simp only [h]; rfl
    · simp only [h, if_false]; rfl

theorem Event.sendOffer_withMoments (s : State) (m : List Nat) (o : Offer) :
    ((Event.begin (s.withMoments m)).sendOffer o).toState = ((Event.begin s).sendOffer o).toState.withMoments m := by
  cases o with
  | announce r => rfl
  | resend f =>
    simp only [Event.sendOffer, Event.commitOffer, Event.begin_toState, State.withMoments_orig]
    cases flightPosition s.orig.flight f.seq <;> rfl
  | fresh p =>
    let taken : State := (s.withPq s.pq.dropOffer).withOrig
      { s.orig with flight := s.orig.flight ++ [p.depart s.orig.nextSeq s.node.timebase]
                    nextSeq := s.orig.nextSeq + 1 }
    let f := (p.depart s.orig.nextSeq s.node.timebase).frame s.node.nodeId
    change startSending f 0 (Event.begin (taken.withMoments m)).roomCheck.toState =
      (startSending f 0 (Event.begin taken).roomCheck.toState).withMoments m
    rw [Event.roomCheck_withMoments]
    rfl

/-- A choice does not look at how events fall on moments. -/
theorem choices_withMoments (s : State) (m : List Nat) : choices (s.withMoments m) = (choices s).withMoments m := by
  have hc : (Event.begin (s.withMoments m)).chooseOutput.toState =
      (Event.begin s).chooseOutput.toState.withMoments m := by
    have ho : originationOffer (s.withMoments m) = originationOffer s := rfl
    unfold Event.chooseOutput
    simp only [Event.begin_toState, State.withMoments_out, State.withMoments_link, ho]
    by_cases h : s.out.sending.isSome = true ∨ s.link.outbound = .quiet
    · simp only [h, if_true]; rfl
    · simp only [h, if_false]
      cases s.out.fifo <;> cases originationOffer s <;> dsimp only
      · rfl
      · exact Event.sendOffer_withMoments ..
      · rfl
      · next f rest o =>
        by_cases h : s.out.starvation = Config.starvationLimit ∧ rest.length + 1 ≤ 2
        · simp only [h, if_true, and_self]; exact Event.sendOffer_withMoments ..
        · simp only [h, if_false]; rfl
  rw [choices, hc, arbitrate_withMoments, choices]

/-! ## The end of an event -/

/-- An event that another of its moment follows commits its causes and leaves the choices to it. -/
theorem Event.finish_of_shared (e : Event) {k : Nat} {later : List Nat} (h : e.moments = (k + 1) :: later) :
    e.finish = e.commit.withMoments (k :: later) := by
  simp [Event.finish, h]

/-- The last event of a moment, and an event that is a moment of its own, commits its causes and the arbiters choose. -/
theorem Event.finish_of_last (e : Event) {later : List Nat} (h : e.moments = 0 :: later) :
    e.finish = choices (e.commit.withMoments later) := by
  simp [Event.finish, h]

theorem Event.finish_of_alone (e : Event) (h : e.moments = []) : e.finish = choices e.commit := by
  simp [Event.finish, h]

/-- A commitment changes nothing that the arbiters look at. -/
theorem Event.chosen_commit (e : Event) (h : Chosen e.toState) : Chosen e.commit := by
  have ho : originationOffer e.commit = originationOffer e.toState :=
    e.commit_induct (motive := fun s => originationOffer s = originationOffer e.toState) rfl fun s o hs => by
      obtain ⟨a, m, ha, -⟩ := appendIncident_eq s o
      rw [ha, ← hs]; rfl
  have hh : hostRequest e.commit = hostRequest e.toState := by simp [hostRequest]
  simpa [Chosen, ho, hh] using h

/-- The end of an event in a settled state is the commitment of its causes. -/
theorem Event.finish_of_settled (e : Event) (h : Settled e.toState) : e.finish = e.commit := by
  rw [e.finish_of_alone h.1, choices_of_chosen (e.chosen_commit h.2)]

/-- A settled event that raised nothing ends in its state. -/
theorem Event.finish_of_settled_nil (e : Event) (h : Settled e.toState) (hr : e.raised = []) :
    e.finish = e.toState := by
  rw [e.finish_of_settled h, e.commit_of_nil hr]

end Sys2Proof.Machine
end

