-- ==== Sys2Proof/Laws/Memory.lean ====
section
/-! SUPPORT. Local memory: what one byte reads after a write, and that every write keeps the canonical form. -/

namespace Sys2Proof.Machine

/-- An empty memory is canonical; State.reset's is. -/
@[simp] theorem Memory.wf_nil : Memory.wf [] := by simp [Memory.wf]

theorem State.reset_mem_wf : State.reset.mem.wf := Memory.wf_nil

@[simp] theorem Memory.readByte_nil (a : Nat) : Memory.readByte [] a = 0 := rfl

theorem Memory.readByte_cons (k : Nat) (v : Byte) (m : Memory) (a : Nat) :
    Memory.readByte ((k, v) :: m) a = if k = a then v else Memory.readByte m a := by
  by_cases h : k = a <;> simp [Memory.readByte, h]

/-- Below the first listed address every byte reads 0. -/
theorem Memory.readByte_of_lt (m : Memory) (a : Nat) (h : ∀ c ∈ m, a < c.1) : m.readByte a = 0 := by
  induction m with
  | nil => rfl
  | cons c m ih =>
    have hc := h c (by simp)
    rw [Memory.readByte_cons, if_neg (by omega)]
    exact ih fun d hd => h d (by simp [hd])

/-- A write leaves every other address as it was, whatever the memory. -/
theorem Memory.readByte_writeByte_ne (m : Memory) {a x : Nat} (b : Byte) (h : x ≠ a) :
    (m.writeByte a b).readByte x = m.readByte x := by
  induction m with
  | nil => by_cases hb : b = 0#8 <;> simp [Memory.writeByte, Memory.readByte_cons, hb, Ne.symm h]
  | cons c m ih =>
    obtain ⟨k, v⟩ := c
    simp only [Memory.writeByte]
    by_cases h1 : a < k
    · by_cases hb : b = 0#8 <;> simp [h1, hb, Memory.readByte_cons, Ne.symm h]
    · by_cases h2 : a = k
      · subst h2
        by_cases hb : b = 0#8 <;> simp [hb, Memory.readByte_cons, Ne.symm h]
      · simp [h1, h2, Memory.readByte_cons, ih]

/-- In a canonical memory the written address reads the byte written. -/
theorem Memory.readByte_writeByte_self (m : Memory) (a : Nat) (b : Byte) (h : m.wf) :
    (m.writeByte a b).readByte a = b := by
  induction m with
  | nil => by_cases hb : b = 0#8 <;> simp [Memory.writeByte, Memory.readByte_cons, hb]
  | cons c m ih =>
    obtain ⟨k, v⟩ := c
    obtain ⟨hp, hc⟩ := h
    rw [List.pairwise_cons] at hp
    simp only [Memory.writeByte]
    by_cases h1 : a < k
    · by_cases hb : b = 0#8
      · have : Memory.readByte ((k, v) :: m) a = 0 := by
          refine Memory.readByte_of_lt _ _ fun d hd => ?_
          rcases List.mem_cons.1 hd with rfl | hd
          · exact h1
          · exact Nat.lt_trans h1 (hp.1 d hd)
        simp [h1, hb, this]
      · simp [h1, hb, Memory.readByte_cons]
    · by_cases h2 : a = k
      · subst h2
        by_cases hb : b = 0#8
        · simpa [hb] using Memory.readByte_of_lt m a hp.1
        · simp [hb, Memory.readByte_cons]
      · simpa [h1, h2, Memory.readByte_cons, Ne.symm h2] using ih ⟨hp.2, fun d hd => hc d (by simp [hd])⟩

/-- The cells of a written memory: those it had, or the byte written when it is not 0. -/
theorem Memory.mem_writeByte (m : Memory) (a : Nat) (b : Byte) (c : Host.Cell) (h : c ∈ m.writeByte a b) :
    c ∈ m ∨ (c = (a, b) ∧ b ≠ 0) := by
  induction m with
  | nil =>
    by_cases hb : b = 0#8 <;> simp_all [Memory.writeByte]
  | cons d m ih =>
    obtain ⟨k, v⟩ := d
    simp only [Memory.writeByte] at h
    split at h
    · split at h
      · exact .inl h
      · rcases List.mem_cons.1 h with rfl | h
        · exact .inr ⟨rfl, ‹_›⟩
        · exact .inl h
    · split at h
      · split at h
        · exact .inl (by simp [h])
        · rcases List.mem_cons.1 h with rfl | h
          · exact .inr ⟨rfl, ‹_›⟩
          · exact .inl (by simp [h])
      · rcases List.mem_cons.1 h with rfl | h
        · exact .inl (by simp)
        · rcases ih h with h | h
          · exact .inl (by simp [h])
          · exact .inr h

/-- Writing a byte inside the address space keeps the canonical form. -/
theorem Memory.wf_writeByte (m : Memory) (a : Nat) (b : Byte) (ha : a < 2 ^ 24) (h : m.wf) : (m.writeByte a b).wf := by
  refine ⟨?_, fun c hc => ?_⟩
  · induction m with
    | nil => by_cases hb : b = 0#8 <;> simp [Memory.writeByte, hb]
    | cons d m ih =>
      obtain ⟨k, v⟩ := d
      obtain ⟨hp, hc⟩ := h
      have hq := List.pairwise_cons.1 hp
      simp only [Memory.writeByte]
      split
      · split
        · exact hp
        · refine List.pairwise_cons.2 ⟨fun c hc => ?_, hp⟩
          rcases List.mem_cons.1 hc with rfl | hc
          · assumption
          · exact Nat.lt_trans ‹a < k› (hq.1 c hc)
      · split
        · subst_vars
          split
          · exact hq.2
          · exact List.pairwise_cons.2 ⟨hq.1, hq.2⟩
        · refine List.pairwise_cons.2 ⟨fun c hc => ?_, ih ⟨hq.2, fun d hd => hc d (by simp [hd])⟩⟩
          rcases Memory.mem_writeByte m a b c hc with hc | ⟨rfl, -⟩
          · exact hq.1 c hc
          · show k < a; omega
  · rcases Memory.mem_writeByte m a b c hc with hc | ⟨rfl, hb⟩
    · exact h.2 c hc
    · exact ⟨ha, hb⟩

theorem laneAddr_lt (w : WordAddr) {k : Nat} (hk : k < 4) : laneAddr w k < 2 ^ 24 := by
  have := w.isLt
  simp only [laneAddr]; omega

/-- Writing one lane keeps the canonical form. -/
theorem Memory.wf_writeLane (m : Memory) (w : WordAddr) (lanes : Lanes) (data : Word) {k : Nat} (hk : k < 4)
    (h : m.wf) : (m.writeLane w lanes data k).wf := by
  unfold Memory.writeLane
  split
  · exact Memory.wf_writeByte _ _ _ (laneAddr_lt w hk) h
  · exact h

/-- A memory write cycle keeps the canonical form. -/
theorem Memory.wf_writeWord (m : Memory) (w : WordAddr) (lanes : Lanes) (data : Word) (h : m.wf) :
    (m.writeWord w lanes data).wf :=
  Memory.wf_writeLane _ _ _ _ (by decide) (Memory.wf_writeLane _ _ _ _ (by decide)
    (Memory.wf_writeLane _ _ _ _ (by decide) (Memory.wf_writeLane _ _ _ _ (by decide) h)))

/-- What an address reads after one lane is written. -/
theorem Memory.readByte_writeLane (m : Memory) (w : WordAddr) (lanes : Lanes) (data : Word) (k a : Nat) (h : m.wf) :
    (m.writeLane w lanes data k).readByte a =
      if lanes.getLsbD k = true ∧ a = laneAddr w k then data.extractLsb' (8 * k) 8 else m.readByte a := by
  unfold Memory.writeLane
  by_cases hl : lanes.getLsbD k = true
  · by_cases ha : a = laneAddr w k
    · subst ha; simp [hl, Memory.readByte_writeByte_self _ _ _ h]
    · simp [hl, ha, Memory.readByte_writeByte_ne _ _ ha]
  · simp [hl]

/-- After a memory write cycle an enabled lane of the word reads the data's byte, a lane not enabled what it held. -/
theorem Memory.readByte_writeWord_lane (m : Memory) (w : WordAddr) (lanes : Lanes) (data : Word) (k : Fin 4)
    (h : m.wf) : (m.writeWord w lanes data).readByte (laneAddr w k.val) =
      if lanes.getLsbD k.val = true then data.extractLsb' (8 * k.val) 8 else m.readByte (laneAddr w k.val) := by
  have h0 := Memory.wf_writeLane m w lanes data (k := 0) (by decide) h
  have h1 := Memory.wf_writeLane _ w lanes data (k := 1) (by decide) h0
  have h2 := Memory.wf_writeLane _ w lanes data (k := 2) (by decide) h1
  unfold Memory.writeWord
  rw [Memory.readByte_writeLane _ _ _ _ _ _ h2, Memory.readByte_writeLane _ _ _ _ _ _ h1,
    Memory.readByte_writeLane _ _ _ _ _ _ h0, Memory.readByte_writeLane _ _ _ _ _ _ h]
  fin_cases k <;> simp [laneAddr]

/-- A memory write cycle leaves every address outside its word as it was, whatever the memory. -/
theorem Memory.readByte_writeWord_ne (m : Memory) (w : WordAddr) (lanes : Lanes) (data : Word) (a : Nat)
    (h : a < 4 * w.toNat ∨ 4 * w.toNat + 4 ≤ a) : (m.writeWord w lanes data).readByte a = m.readByte a := by
  have lane (m : Memory) (k : Nat) (hk : k < 4) : (m.writeLane w lanes data k).readByte a = m.readByte a := by
    unfold Memory.writeLane
    split
    · exact Memory.readByte_writeByte_ne _ _ (by simp only [laneAddr]; omega)
    · rfl
  unfold Memory.writeWord
  rw [lane _ 3 (by decide), lane _ 2 (by decide), lane _ 1 (by decide), lane _ 0 (by decide)]

end Sys2Proof.Machine
end

