-- ==== Sys2Proof/Laws/Operations.lean ====
section
/-! SUPPORT. One lemma for each operation that several commands share: what it answers and when. Later proofs cite these
and do not unfold the operation. -/

namespace Sys2Proof.Machine

/-! ## Counters and marks -/

/-- A counter that stops at 255 (R149, R150). -/
@[simp] theorem satAdd_toNat (b : Byte) (n : Nat) : (satAdd b n).toNat = min 255 (b.toNat + n) := by
  simp only [satAdd, BitVec.toNat_ofNat]; omega

/-- A counter that stops at 0 (R149, R150). -/
@[simp] theorem satPred_toNat (b : Byte) : (satPred b).toNat = b.toNat - 1 := by
  have h (x : BitVec 8) : (if x = 0 then 0 else x - 1 : BitVec 8).toNat = x.toNat - 1 := by
    split
    · simp_all
    · next h =>
      have h0 : x.toNat ≠ 0 := fun h' => h (BitVec.eq_of_toNat_eq (by simpa using h'))
      have := x.isLt
      rw [BitVec.toNat_sub, show (1 : BitVec 8).toNat = 1 from rfl]
      omega
  exact h b

/-- At or before a mark, modulo 65,536 (R126). -/
theorem atOrBefore_iff (a m : AccNo) : atOrBefore a m = true ↔ (m - a).toNat < 32768 := by simp [atOrBefore]

/-! ## Capture (R39 to R42) -/

/-- A capture merges into the tail, appends an entry, or finds no room. -/
theorem Event.capture_cases (e : Event) (r : CaptureRequest) :
    (∃ t, (e.pq.classList r.cls).getLast? = some t ∧ r.combinesWith t = true ∧
      e.capture r = some (e.combineTail r t)) ∨
    ((∀ t ∈ (e.pq.classList r.cls).getLast?, r.combinesWith t = false) ∧ e.pq.hasRoom r.cls = true ∧
      e.capture r = some (e.createEntry r)) ∨
    ((∀ t ∈ (e.pq.classList r.cls).getLast?, r.combinesWith t = false) ∧ e.pq.hasRoom r.cls = false ∧
      e.capture r = none) := by
  unfold Event.capture
  cases ht : (e.pq.classList r.cls).getLast? with
  | none => cases hr : e.pq.hasRoom r.cls <;> simp
  | some t => cases hc : r.combinesWith t <;> cases hr : e.pq.hasRoom r.cls <;> simp [hc]

/-- The check for room leaves the event or captures the held request and lets its write go on (R45). -/
theorem Event.roomCheck_cases (e : Event) :
    e.roomCheck = e ∨
    ∃ r, e.pq.held = some r ∧ e.host.hold = .publishHold ∧ e.pq.hasRoom r.cls = true ∧
      e.roomCheck = (e.on fun s => endPublishHold .publish (heldWindow s) s).createEntry r := by
  unfold Event.roomCheck
  cases hr : e.pq.held with
  | none => exact .inl rfl
  | some r =>
    dsimp only
    split
    · next h => exact .inr ⟨r, rfl, h.1, h.2, rfl⟩
    · exact .inl rfl

/-- A demotion leaves an event without a publish hold as it is (R47). -/
theorem Event.demoteUnpublished_of_ne (e : Event) (h : e.host.hold ≠ .publishHold) : e.demoteUnpublished = e := by
  simp [Event.demoteUnpublished, h]

theorem demotePlain_of_ne (s : State) (h : s.host.hold ≠ .publishHold) : demotePlain s = s := by
  simp [demotePlain, h]

/-! ## Class lists (R38) -/

@[simp] theorem PublishQueue.classList_setClassList_self (q : PublishQueue) (c : PrioClass) (l : List PqEntry) :
    (q.setClassList c l).classList c = l := by
  fin_cases c <;> rfl

theorem PublishQueue.classList_setClassList_ne (q : PublishQueue) {c d : PrioClass} (l : List PqEntry) (h : d ≠ c) :
    (q.setClassList c l).classList d = q.classList d := by
  fin_cases c <;> fin_cases d <;> first | rfl | exact absurd rfl h

@[simp] theorem PublishQueue.setClassList_held (q : PublishQueue) (c : PrioClass) (l : List PqEntry) :
    (q.setClassList c l).held = q.held := by
  fin_cases c <;> rfl

/-- The total counts every entry. -/
theorem PublishQueue.total_eq (q : PublishQueue) : q.total = q.entries.length := by
  simp [PublishQueue.total, PublishQueue.low, PublishQueue.entries, Nat.add_assoc]

/-! ## Fault reports and levels (R149 to R152) -/

@[simp] theorem Event.reportUnder_offline (e : Event) (r : Report) : e.reportUnder .offline r = e := by
  simp [Event.reportUnder]

/-- The level evaluation isolates, degrades, restores, or leaves the event. -/
theorem Event.evaluateLevel_cases (e : Event) :
    (e.node.level ≠ .isolated ∧ (240 ≤ e.node.lif.toNat ∨ 240 ≤ e.node.rtf.toNat) ∧ e.evaluateLevel = e.isolate) ∨
    (e.node.level = .normal ∧ e.evaluateLevel = (e.on (setLevel .degraded)).raise .levelChange) ∨
    (e.node.level = .degraded ∧ e.node.lif.toNat ≤ 63 ∧ e.node.rtf.toNat ≤ 63 ∧
      e.evaluateLevel = (e.on (setLevel .normal)).raise .levelChange) ∨
    e.evaluateLevel = e := by
  unfold Event.evaluateLevel
  dsimp only [Config.isolateAt, Config.degradeAt, Config.restoreAt]
  split
  · next h => exact .inl ⟨h.1, h.2, rfl⟩
  · split
    · next h => exact .inr (.inl ⟨h.1, rfl⟩)
    · split
      · next h => exact .inr (.inr (.inl ⟨h.1, h.2.1, h.2.2, rfl⟩))
      · exact .inr (.inr (.inr rfl))

/-- Level evaluation of a node whose counters are below every threshold and not at DEGRADED changes nothing. -/
theorem Event.evaluateLevel_of_normal (e : Event) (h : e.node.level = .normal) (hl : e.node.lif.toNat < 96)
    (hr : e.node.rtf.toNat < 96) : e.evaluateLevel = e := by
  have h1 : ¬240 ≤ e.node.lif.toNat := by omega
  have h2 : ¬240 ≤ e.node.rtf.toNat := by omega
  simp [Event.evaluateLevel, h, h1, h2, Nat.not_le.2 hl, Nat.not_le.2 hr]

/-- A drain ends, or, with something left or in another mode, the event stays as it is (R146). -/
theorem Event.drainCheck_cases (e : Event) :
    (e.node.mode = .draining ∧ e.pq.total = 0 ∧ e.orig.flight = [] ∧
      e.drainCheck = (e.on (setMode .offline)).raise .drainDone) ∨
    (¬(e.node.mode = .draining ∧ e.pq.total = 0 ∧ e.orig.flight = []) ∧ e.drainCheck = e) := by
  unfold Event.drainCheck
  split
  · next h => exact .inl ⟨h.1, h.2.1, h.2.2, rfl⟩
  · next h => exact .inr ⟨h, rfl⟩

/-! ## Reception (R72, R111 to R115, R120) -/

/-- A frame is forwarded, or a full Transit FIFO drops it with its cause and its report. -/
theorem Event.forward_cases (e : Event) (f : Frame) (nak : Bool) :
    (4 ≤ e.out.fifo.length ∧ e.forward f nak = (e.raise (.transitDrop f.source f.seq)).report .transitDrop) ∨
    (e.out.fifo.length < 4 ∧ e.forward f nak =
      e.on fun s => s.withOut { s.out with fifo := s.out.fifo ++ [{ f with hops := f.hops + 1, nak := nak }] }) := by
  unfold Event.forward
  split
  · next h => exact .inl ⟨h, rfl⟩
  · next h => exact .inr ⟨by simpa using h, rfl⟩

/-- The six outcomes of an UPDATE in order, the level deciding between the last two. -/
theorem Event.inOrder_cases (e : Event) (f : Frame) (ch : Byte) (span : SpanOffset) (mask : SpanMask)
    (words : List Word) :
    (channelLookup e.windows ch = none ∧ e.inOrder f ch span mask words = (e.take f.source, false)) ∨
    ∃ i, channelLookup e.windows ch = some i ∧
      ((e.windows[i].kind = .owned ∧
        e.inOrder f ch span mask words = ((e.raise (.ownerConflict i f.source f.seq)).take f.source, false)) ∨
      (e.windows[i].kind = .mirror ∧ e.windows[i].holdsSpan span = false ∧
        e.inOrder f ch span mask words = ((e.raise (.rangeError i f.source f.seq)).take f.source, false)) ∨
      (e.windows[i].kind = .mirror ∧ e.windows[i].holdsSpan span = true ∧
        ((e.aq.entries.length < 24 ∧ e.inOrder f ch span mask words =
          ((e.on (createApplyEntry (e.windows[i].spanBase span) mask words i)).take f.source, false)) ∨
        (24 ≤ e.aq.entries.length ∧ e.node.level = .normal ∧ e.inOrder f ch span mask words = (e, true)) ∨
        (24 ≤ e.aq.entries.length ∧ e.node.level ≠ .normal ∧
          e.inOrder f ch span mask words = ((e.requestStale i).take f.source, false))))) := by
  unfold Event.inOrder
  cases hc : channelLookup e.windows ch with
  | none => exact .inl ⟨rfl, rfl⟩
  | some i =>
    refine .inr ⟨i, rfl, ?_⟩
    dsimp only
    generalize e.windows[i] = w
    cases hk : w.kind with
    | owned => exact .inl ⟨rfl, rfl⟩
    | mirror =>
      rcases Bool.eq_false_or_eq_true (w.holdsSpan span) with hs | hs
      · refine .inr (.inr ⟨rfl, hs, ?_⟩)
        by_cases hr : e.aq.entries.length < 24
        · exact .inl ⟨hr, by simp [hs, applyRoom, hr]⟩
        · by_cases hl : e.node.level = .normal
          · exact .inr (.inl ⟨by omega, hl, by simp [hs, applyRoom, hr, hl]⟩)
          · exact .inr (.inr ⟨by omega, hl, by simp [hs, applyRoom, hr, hl]⟩)
      · exact .inr (.inl ⟨rfl, hs, by simp [hs]⟩)

/-! ## The In-Flight List (R91) -/

/-- A go-back gives up at RETRY_LIMIT and otherwise sends the whole list back; an empty list has none. -/
theorem Event.goBack_cases (e : Event) (objection : Bool) :
    (e.orig.flight = [] ∧ e.goBack objection = e) ∨
    (∃ h rest, e.orig.flight = h :: rest ∧ h.retry = e.node.params.retryLimit ∧ e.goBack objection = e.giveUp h.seq) ∨
    (∃ h rest, e.orig.flight = h :: rest ∧ h.retry ≠ e.node.params.retryLimit ∧
      e.goBack objection = e.on (goBackFlight objection)) := by
  unfold Event.goBack
  cases hf : e.orig.flight with
  | nil => exact .inl ⟨rfl, rfl⟩
  | cons h rest =>
    dsimp only
    split
    · next hr => exact .inr (.inl ⟨h, rest, rfl, hr, rfl⟩)
    · next hr => exact .inr (.inr ⟨h, rest, rfl, hr, rfl⟩)

/-! ## Acceptance (R2) -/

/-- The cycle the host presents is accepted, or nothing happens: no cycle is presented, or R2 does not accept it now. -/
theorem Event.acceptPresented_cases (e : Event) :
    (∃ c, e.host.presented = some c ∧ canAccept e.toState = true ∧ e.acceptPresented = e.accept c) ∨
      ((e.host.presented = none ∨ canAccept e.toState = false) ∧ e.acceptPresented = e) := by
  unfold Event.acceptPresented
  split
  next c hc => split <;> simp_all
  next hc => simp_all

/-! ## Read holds (R135) -/

/-- A held read is released exactly when no entry at or before its mark is left. -/
theorem releaseReadHold_cases (s : State) :
    (s.host.hold = .readHold ∧ (∀ a ∈ s.aq.entries, ¬(s.host.holdMark - a.acc).toNat < 32768) ∧
      releaseReadHold s = s.withHost { s.host with path := .requesting, hold := .noHold }) ∨
    (¬(s.host.hold = .readHold ∧ ∀ a ∈ s.aq.entries, ¬(s.host.holdMark - a.acc).toNat < 32768) ∧
      releaseReadHold s = s) := by
  unfold releaseReadHold
  split
  · next h => exact .inl ⟨h.1, by simpa [atOrBefore] using h.2, rfl⟩
  · next h => exact .inr ⟨by simpa [atOrBefore] using h, rfl⟩

/-! ## Memory cycles that complete, and the choice (R14, R133) -/

/-- HD after a host cycle's completion: the read's data while its HSTB_N is still low, and nothing otherwise (R193). -/
@[simp] theorem completeHostCycle_hd (data : Option Word) (s : State) :
    (completeHostCycle data s).host.hd = if strobeHeld s.host then data else none := rfl

/-- A choice that has been made stands: choosing again changes nothing. -/
@[simp] theorem arbitrate_idem (s : State) : arbitrate (arbitrate s) = arbitrate s := by
  rcases h : s.arb.cycle with _ | c
  · rcases hc : arbiterChoice s with _ | c
    · simp [arbitrate, h, hc]
    · have : (grantCycle c s).arb.cycle = some c := by unfold grantCycle; cases c.grant <;> rfl
      simp [arbitrate, h, hc, this]
  · simp [arbitrate, h]

/-! ## Runs of invalid symbols (R61, R64) -/

/-- Between frames a run of invalid symbols begins without an event. -/
theorem runBegins_of_none {s : State} (h : s.link.assembly = none) : runBegins s = s := by simp [runBegins, h]

/-- Inside a frame its first symbol is an event of its own: the cut-off (R64, R163). -/
theorem runBegins_of_some {s : State} (h : s.link.assembly.isSome = true) :
    runBegins s = (Event.begin s).cutOff.commit := by simp [runBegins, h]

/-! ## Management commands (R176) -/

/-- A command row executes where its bytes can be completed, and changes nothing elsewhere. -/
theorem commandRow_eq (c : Command) (args : List Byte) (s : State) :
    commandRow c args s =
      if Completing s (c.code :: args) then .next (executeCommand c args (setMclk true s)) else .next s := rfl

/-- The state after an execution: the effect, then RESPONDING with the response at position 0. -/
theorem executeCommand_eq (c : Command) (args : List Byte) (s : State) :
    executeCommand c args s =
      (c.effect args s).1.withMgmt { (c.effect args s).1.mgmt with
        txn := { (c.effect args s).1.mgmt.txn with
          port := .responding, bitCount := 0, shift := 0, command := some c, args := args
          response := some (c.effect args s).2, position := 0 } } := rfl

/-- An index byte below 16 names its record; any other is BAD_ARG. -/
theorem withIndex_of_lt (n : Byte) (s : State) (f : Fin 16 → State × List Byte) (i : Fin 16) (h : n.toNat = i.val) :
    withIndex n s f = f i := by
  have hn : n.toNat < 16 := by omega
  simp only [withIndex, hn, dif_pos]
  congr 1
  exact Fin.ext h

theorem withIndex_of_ge (n : Byte) (s : State) (f : Fin 16 → State × List Byte) (h : 16 ≤ n.toNat) :
    withIndex n s f = (s, [statusBadArg]) := by
  simp [withIndex, Nat.not_lt.2 h]

/-! ## The queue of commands -/

@[simp] theorem withFetchWord_eq (s : State) (nbits w : Nat) : s.withFetchWord nbits w = s := rfl

end Sys2Proof.Machine
end

