-- ==== Sys2Proof/Tests/Slice0.lean ====
section
/-! SUPPORT. Tests: ill-formed commands that WellFormed refuses, small checks of the commands against the worked examples
and tables of spec/, and for every statement with hypotheses a concrete state and operands that meet them. -/

namespace Sys2Proof.Tests

open Sys2Proof.Machine

-- One theorem after another: the kernel's evaluations below then share one thread.
set_option Elab.async false

/-! ## States the tests stand in -/

/-- W0 of the window table example (chapter 2, step 2). -/
def w0 : Window :=
  { kind := .owned, enabled := true, base := 4096, sizeCode := 10, channel := 7, cls := 2, combine := true
    policy := .accept, diverged := false, stale := false, updates := 0 }

/-- W1 of the example (step 7). -/
def w1 : Window :=
  { kind := .mirror, enabled := true, base := 8192, sizeCode := 8, channel := 9, cls := 0, combine := false
    policy := .accept, diverged := false, stale := false, updates := 0 }

/-- W2 of the example (step 11). -/
def w2 : Window := { w1 with base := 8320, sizeCode := 6, channel := 12, policy := .refuse }

/-- Node 2 in a mode, its inbound link UP, with the window table reached at step 12 of the example. -/
def running (mode : Mode) : State :=
  { State.reset with
    windows := (((Vector.replicate 16 Window.reset).set 0 w0).set 1 w1).set 2 w2
    node := { NodeControl.reset with mode := mode, nodeId := 2 }
    link := { State.reset.link with inbound := .up, validRun := 32 } }

/-- The same node JOINING, its announce record SENT. -/
def joining : State :=
  { running .joining with
    orig := { Origination.reset with announce := some { startSeq := 0, retry := 0, state := .sent, departure := 0 } } }

/-- A frame of a source with one UPDATE word, or an ANNOUNCE. -/
def frameOf (source : NodeId) (seq : Byte) (body : FrameBody) : Frame :=
  { source := source, seq := seq, attempt := 0, nak := false, hops := 1, body := body }

def oneWord (channel : Byte) (span : SpanOffset) : FrameBody := .update channel span 0x000F [0x11223344]

/-- A transmission is in progress. -/
def busy (s : State) : State := { s with out := { s.out with sending := some (frameOf 5 0 .announce) } }

/-- A transmission is in progress and the Transit FIFO is full. -/
def crowded (s : State) : State :=
  { s with out := { s.out with sending := some (frameOf 5 0 .announce), fifo := List.replicate 4 (frameOf 5 1 .announce) } }

/-- A transaction in RECEIVING before its first bit. -/
def selected (s : State) : State :=
  { s with mgmt := { s.mgmt with mselN := false, txn := { Transaction.idle with port := .receiving } } }

/-- Apply Queue entries in order from acceptance number 51, the head WRITING its word 0, and the memory port on it. -/
def applying (mask : SpanMask) (n : Nat) (s : State) : State :=
  let entry (k : Nat) : AqEntry :=
    { acc := BitVec.ofNat 16 (51 + k), base := 8200, mask := mask, words := zeroWords, window := 1
      state := if k = 0 then .writing else .waiting, next := 0 }
  { s with
    aq := { entries := (List.range n).map entry, nextAcc := BitVec.ofNat 16 (51 + n) }
    arb := { cycle := some { grant := .apply, word := 8200, dir := .write, lanes := 15, data := 0 }
             lastGrant := .apply } }

/-- A host cycle in a path state and hold. -/
def hosting (path : PathState) (hold : HoldState) (c : CycleRecord) (s : State) : State :=
  { s with host := { s.host with path := path, hold := hold, cycle := some c } }

def readOf (w : WordAddr) : CycleRecord :=
  { word := w, dir := .read, lanes := 15, data := none, cls := .plain, window := none }

/-- A read of word 8,200 in READ_HOLD under a mark. -/
def readHeld (mark : AccNo) (s : State) : State :=
  let s := hosting .holding .readHold (readOf 8200) s
  s.withHost { s.host with holdMark := mark }

def writeOf (w : WordAddr) (cls : HostClass) (window : Option WinIdx) : CycleRecord :=
  { word := w, dir := .write, lanes := 15, data := some 0xAABBCCDD, cls := cls, window := window }

/-- The memory port runs the host's cycle. -/
def serving (dir : Direction) (s : State) : State :=
  { hosting .memory .noHold (if dir = .read then readOf 4096 else writeOf 4096 .plain none) s with
    arb := { cycle := some { grant := .host, word := 4096, dir := dir, lanes := 5, data := 0xAABBCCDD }
             lastGrant := .host } }

/-- The host has raised HSTB_N and presents a next cycle, or still presents the cycle that was accepted. -/
def presenting (released : Bool) (s : State) : State :=
  s.withHost { s.host with presented := some { addr := 0, dir := .read, lanes := 15, data := 0 }
                           strobeHighSince := released }

/-- A Publish Queue entry of W0. -/
def queued (cls : PrioClass) : PqEntry :=
  { channel := 7, span := 1, words := zeroWords, mask := 0x000F, cls := cls, window := 0 }

/-- n entries in class list 2. -/
def withQueued (n : Nat) (s : State) : State := { s with pq := { s.pq with class2 := List.replicate n (queued 2) } }

/-- The low classes are full and a write of W0 is in PUBLISH_HOLD since time 0. -/
def held (s : State) : State :=
  let s := hosting .holding .publishHold (writeOf 4100 .publish (some 0)) (applying 0x000F 1 (busy s))
  { s with pq := { s.pq with
      class2 := List.replicate 28 (queued 2)
      held := some { channel := 7, cls := 2, combine := true, window := 0, span := 2, pos := 0, lanes := 15
                     data := 0xAABBCCDD } } }

/-- n In-Flight List entries up to sequence 0, all SENT at time 0 or all awaiting their resend. -/
def flying (n : Nat) (retry : Byte) (state : FlightState) (s : State) : State :=
  let entry (k : Nat) : IflEntry :=
    { seq := BitVec.ofNat 8 (256 - n + k), retry := retry, state := state, departure := 0, channel := 7, span := 3
      mask := 0x000F, words := zeroWords, window := 0 }
  { s with orig := { s.orig with
      flight := (List.range n).map entry
      resend := if state = .sent then none else some (BitVec.ofNat 8 (256 - n)) } }

/-- The timebase at t. -/
def at_ (t : Time) (s : State) : State := { s with node := { s.node with timebase := t } }

/-- LIF, RTF and the level. -/
def faulty (lif rtf : Byte) (level : Level) (s : State) : State :=
  { s with node := { s.node with lif := lif, rtf := rtf, level := level } }

/-- A source's entry KNOWN with an expected sequence. -/
def knows (source : NodeId) (expected : Byte) (s : State) : State :=
  { s with sources := s.sources.set source { SeqEntry.reset with known := true, expected := expected } }

/-- The inbound link in a state with its runs and partial frame. -/
def linked (inbound : InboundState) (validRun invalidRun : Nat) (assembly : Option (List Byte)) (s : State) : State :=
  { s with link := { s.link with inbound := inbound, validRun := validRun, invalidRun := invalidRun, assembly := assembly
                                 skip := assembly.isNone } }

/-- RESET_N has fallen. -/
def fallen (s : State) : State := enterHardReset s

/-- The command answers a next state of which a test holds. -/
def gives (o : Host.Outcome State Fault Refusal) (test : State → Bool) : Bool :=
  match o with
  | .next t => test t
  | .fault _ => false
  | .refused _ => false

/-- Two commands one after the other. -/
def andThen (o : Host.Outcome State Fault Refusal) (c : Instr) : Host.Outcome State Fault Refusal :=
  match o with
  | .next t => exec c t
  | .fault f => .fault f
  | .refused r => .refused r

/-! ## Ill-formed commands -/

/-- END completes a frame and never cuts one off (R63, R64). -/
theorem test_end_is_no_cut_off : (Instr.frameCutOff .endFrame).wellFormed = false := by decide
/-- 28 bytes never arrive (R63). -/
theorem test_no_frame_of_28_bytes : (Instr.frameArrival (List.replicate 28 0)).wellFormed = false := by decide
theorem test_frame_of_27_bytes : (Instr.frameArrival (List.replicate 27 0)).wellFormed = true := by decide
/-- 0x31 is STOP, not an unknown command (R175). -/
theorem test_named_code_is_not_unknown : (Instr.unknownCommand 0x31).wellFormed = false := by decide
theorem test_unnamed_code_is_unknown : (Instr.unknownCommand 0x32).wellFormed = true := by decide
/-- The block's commands have no words (spec/opcode_table.json gives no bits). -/
theorem test_no_word_spells_a_command : decodeTableWord 8 0x31 = none ∧ State.reset.withFetchWord 8 0x31 = State.reset :=
  ⟨rfl, rfl⟩

/-! ## Formats (chapters 4 and 11) -/

/-- The check of the bytes 0x31 to 0x39 (R68). -/
theorem test_check : check [0x31, 0x32, 0x33, 0x34, 0x35, 0x36, 0x37, 0x38, 0x39] = 0x29B1 := by decide +kernel

/-- The illustration of R187: source 3, attempt 1, NAK 0, hops 2 is 0x13 at offset 0 and 0x42 at offset 2. -/
theorem test_header_bytes :
    (({ frameOf 3 9 (oneWord 7 1) with attempt := 1, hops := 2 } : Frame).bytes[0]?,
      ({ frameOf 3 9 (oneWord 7 1) with attempt := 1, hops := 2 } : Frame).bytes[2]?) = (some 0x13, some 0x42) := by
  decide +kernel

/-- A word travels in lane order (R187). -/
theorem test_word_bytes : wordBytes 0x11223344 = [0x44, 0x33, 0x22, 0x11] := by decide

/-- An ANNOUNCE has 5 bytes, an UPDATE of one word 15 and one of three words 23 (R66, R67, chapter 3). -/
theorem test_frame_lengths :
    ((frameOf 3 9 .announce).bytes.length, (frameOf 3 9 (oneWord 7 1)).bytes.length,
      (frameOf 3 9 (.update 7 1 0xFF0C [0, 0, 0])).bytes.length) = (5, 15, 23) := by decide +kernel

/-- The code groups of R188. -/
theorem test_code_groups :
    classifyGroup 0b0100111100 = .idle ∧ classifyGroup 0b0100001111 = .startFrame ∧
      classifyGroup 0b0111110000 = .endFrame ∧ classifyGroup 0b1001000001 = .data 0x41 ∧
      classifyGroup 0b0100000000 = .invalid ∧ classifyGroup 0b1101000001 = .invalid := by decide

/-! ## The host side (chapters 1 to 3, 7) -/

/-- Word 4,100, position 0 of span 1 of W0: an entry of mask 0x000F, departed at once as sequence 0 (11.5, steps 1, 2). -/
theorem test_publish_departs :
    gives (exec (.hostCycleAcceptance 0x004010 .write 15 0x11223344) (running .active)) (fun t =>
      t.orig.flight.map (fun f => (f.seq, f.channel, f.span, f.mask)) == [(0, 7, 1, 0x000F)] &&
        t.orig.nextSeq == 1 && t.windows[0].updates == 1) = true := by decide +kernel

/-- Combining, steps 1 and 2: lanes 0..1 of word 4,101 join the tail of word 4,100 (chapter 3). -/
theorem test_combining :
    gives (andThen (andThen (andThen (exec (.hostCycleAcceptance 0x004010 .write 15 0x11111111) (busy joining))
        (.memoryCycleCompletion 0)) .hstbNRelease) (.hostCycleAcceptance 0x004014 .write 3 0x00002222)) (fun t =>
      t.pq.class2.map (fun p => (p.span, p.mask, p.words[0], p.words[1])) == [(1, 0x003F, 0x11111111, 0x00002222)] &&
        t.windows[0].updates == 2) = true := by decide +kernel

/-- Two entries, 51 and 52, cover word 8,200: READ_HOLD under the number of the youngest (R8). -/
theorem test_read_hold :
    gives (exec (.hostCycleAcceptance 0x008020 .read 1 0) (applying 0x000F 2 (running .active))) (fun t =>
      t.host.hold == .readHold && t.host.holdMark == 52 && t.hrdy == false) = true := by decide +kernel

/-- Word 8,324 matches W1 and is LOCAL: STALE on W1 (classification examples). -/
theorem test_local_write :
    gives (exec (.hostCycleAcceptance 0x008212 .write 12 0) (running .active)) (fun t =>
      t.host.cycle.map CycleRecord.cls == some .localWrite && t.windows[1].stale &&
        t.attn.queue.map Incident.what == [.staleMarked 1]) = true := by decide +kernel

/-- With W1 disabled the same word matches W2 and is REFUSED (classification examples). -/
theorem test_refused_write :
    gives (andThen (exec (.disableWindow 1) (selected (running .active))) (.hostCycleAcceptance 0x008210 .write 15 0))
      (fun t => t.host.path == .free && t.hrdy == false &&
        t.attn.queue.map Incident.what == [.refusedWrite 2 8324]) = true := by decide +kernel

/-- The completion of a refused write is signalled with HERR. -/
theorem test_refused_completion :
    gives (andThen (andThen (exec (.disableWindow 1) (selected (running .active)))
        (.hostCycleAcceptance 0x008210 .write 15 0)) .refusedWriteCompletion)
      (fun t => t.hrdy && t.herr && t.host.completions == 1) = true := by decide +kernel

/-- A local write meeting a pending update, step 2 (chapter 7): lanes 2 and 3 over the host's word give 0xAABB7788. -/
theorem test_lanes_over_a_word :
    (Memory.readWord (Memory.writeWord (Memory.writeWord [] 8200 15 0x55667788) 8200 12 0xAABB0000) 8200) =
      0xAABB7788 := by decide +kernel

/-- A host write's memory cycle ends with its enabled lanes written; a new cycle still presented when the path becomes
FREE is accepted then, the completed cycle is not accepted again. HD carries a read's data only while its HSTB_N is still
low (R193). -/
theorem test_host_cycle_completion :
    gives (exec (.memoryCycleCompletion 0) (serving .write (running .active))) (fun t =>
      t.mem == [(16384, 0xDD), (16386, 0xBB)] && t.hrdy && t.herr == false) = true ∧
    gives (exec (.memoryCycleCompletion 0) (presenting true (serving .write (running .active)))) (fun t =>
      t.host.path == .memory && t.hrdy == false && t.host.completions == 1) = true ∧
    gives (exec (.memoryCycleCompletion 0) (presenting false (serving .read (running .active)))) (fun t =>
      t.host.path == .free && t.hrdy && t.host.hd == some 0) = true ∧
    gives (exec (.memoryCycleCompletion 0) (serving .read (running .active))) (fun t =>
      t.hrdy && t.host.hd == none && t.host.returned == some 0) = true := by decide +kernel

/-- Removal of the WRITING head (mask of one word) counts one update of its window. When DISABLE_WINDOW or SOFT_RESET
meets the completion, the entry behind is voided and the read held for it is released and served (R136, second row). -/
theorem test_apply_cycle_completion :
    gives (exec (.memoryCycleCompletion 0) (applying 0x000F 1 (running .active))) (fun t =>
      t.aq.entries == [] && t.windows[1].updates == 1 && t.arb.cycle == none) = true ∧
    let s := readHeld 52 (selected (applying 0x000F 2 (running .active)))
    gives (exec (.memoryCycleCompletion 0) s) (fun t =>
      t.aq.entries.map AqEntry.state == [.writing] && t.host.hold == .readHold) = true ∧
    gives (andThen (exec (.memoryCycleCompletion 0) (s.withMoments [1])) (.disableWindow 1)) (fun t =>
      t.aq.entries == [] && t.host.hold == .noHold && t.host.path == .memory && t.windows[1].updates == 1) = true ∧
    gives (andThen (exec (.memoryCycleCompletion 0) (s.withMoments [1])) .softReset) (fun t =>
      t.aq.entries == [] && t.host.hold == .noHold && t.host.path == .memory && t.windows[1].updates == 0) = true := by
  decide +kernel

/-- A host cycle and an entry of word 8,200 at one moment at a FREE port: with the marker APPLY the host's write is
granted (chapter 7, a local write meeting a pending update), with HOST the Apply Queue, and a read accepted first is not
held. A soft reset at the moment of the creation voids the entry (R131, R139). -/
theorem test_requests_of_one_moment :
    let s (last : Requester) := selected ((busy (running .active)).withArb { cycle := none, lastGrant := last })
    let arrival : Instr := .frameArrival (frameOf 3 118 (.update 9 2 0x000C [0xAABB0000])).bytes
    gives (andThen (exec (.hostCycleAcceptance 0x008020 .write 15 0x55667788) ((s .apply).withMoments [1])) arrival)
      (fun t => t.arb.lastGrant == .host && t.host.path == .memory &&
        t.aq.entries.map AqEntry.state == [.waiting]) = true ∧
    gives (andThen (exec (.hostCycleAcceptance 0x008020 .read 15 0) ((s .host).withMoments [1])) arrival)
      (fun t => t.arb.lastGrant == .apply && t.host.path == .requesting && t.host.hold == .noHold) = true ∧
    gives (andThen (exec arrival ((s .host).withMoments [1])) .softReset)
      (fun t => t.aq.entries == [] && t.arb.cycle == none) = true := by decide +kernel

/-- A forwarded frame and an offer at one moment on an idle link: row 4 of R74 sends the frame, row 3 the offer. A frame
forwarded at the moment of a soft reset, and taken first, is removed (R73, R77). -/
theorem test_frames_of_one_moment :
    let s (starvation : Nat) := selected ((running .active).withOut { OutputArbiter.reset with starvation := starvation })
    let arrival : Instr := .frameArrival (frameOf 3 118 .announce).bytes
    let both (n : Nat) := andThen (exec (.hostCycleAcceptance 0x004010 .write 15 0) ((s n).withMoments [1])) arrival
    gives (both 7) (fun t => t.out.sending.map (fun f => f.source) == some 3 && t.out.starvation == 8 &&
      t.pq.class2.length == 1) = true ∧
    gives (both 8) (fun t => t.out.sending.map (fun f => f.source) == some 2 && t.out.fifo.length == 1) = true ∧
    gives (andThen (exec arrival ((s 0).withMoments [1])) .softReset)
      (fun t => t.out.sending == none && t.out.fifo == []) = true := by decide +kernel

/-- PHL is 50 by default: at 49 the hold stands, at 50 the write is demoted with PUBLISH_OVERRUN (R46, R156). -/
theorem test_publish_hold_expiry :
    (gives (exec .publishHoldExpiry (at_ 49 (held (running .active)))) fun t => t.host.hold == .publishHold) = true ∧
    (gives (exec .publishHoldExpiry (at_ 50 (held (running .active)))) fun t =>
      t.host.hold == .noHold && t.windows[0].diverged &&
        t.attn.queue.map Incident.what == [.publishOverrun 0 2 4100, .divergedMarked 0]) = true := by decide +kernel

/-- HSTB_N rises. -/
theorem test_strobe_release :
    gives (exec .hstbNRelease (running .active)) (fun t => t.host.presented == none && t.host.strobeHighSince) = true := by
  decide +kernel

/-! ## The ring (chapters 4 to 6) -/

/-- The first transition takes NO_SIGNAL to ALIGNING (chapter 4, alignment). -/
theorem test_signal_detected :
    gives (exec .signalDetected State.reset) (fun t => t.link.inbound == .aligning && t.link.validRun == 0) = true := by
  decide +kernel

/-- 2 µs without a transition (R59). -/
theorem test_loss_of_signal :
    gives (exec .lossOfSignal (at_ 2 (running .active))) (fun t =>
      t.link.inbound == .noSignal && t.attn.queue.map Incident.what == [.linkChange]) = true := by decide +kernel

/-- LINK_UP: UP with LINK_CHANGE and the skip flag set. -/
theorem test_link_up :
    gives (exec .linkUp (linked .aligning 0 0 none (running .offline))) (fun t =>
      t.link.inbound == .up && t.link.skip && t.attn.raisedSet == 0x0008) = true := by decide +kernel

/-- One invalid symbol inside a frame: cut off, LIF 6 (11.6, node 1). -/
theorem test_cut_off :
    gives (exec (.frameCutOff .invalid) (linked .up 32 0 (some [1, 2, 3]) (running .active))) (fun t =>
      t.link.invalidRun == 1 && t.link.assembly == none && t.node.lif == 6) = true := by decide +kernel

/-- Four invalid symbols: ALIGNING with LINK_CHANGE. -/
theorem test_alignment_lost :
    gives (exec .alignmentLost (running .active)) (fun t =>
      t.link.inbound == .aligning && t.link.validRun == 0 && t.attn.raisedSet == 0x0008) = true := by decide +kernel

/-- Four invalid symbols inside a frame at LIF 234: the cut-off's records, isolation's among them, stand together before
the record of the link change (R163). -/
theorem test_alignment_lost_in_a_frame :
    gives (exec .alignmentLost (faulty 234 0 .degraded (flying 1 0 .sent (linked .up 32 0 (some [1]) (running .active)))))
      (fun t => t.attn.queue.map Incident.what == [.levelChange, .divergedMarked 0, .linkChange]) = true := by
  decide +kernel

/-- START opens a partial frame. -/
theorem test_start_symbol :
    gives (exec (.symbolReceived 0b0100001111) (running .active)) (fun t =>
      t.link.assembly == some [] && t.link.skip == false) = true := by decide +kernel

/-- UPDATE 3/118 on channel 9 adopts source 3 with expected 119 and is forwarded with hops one greater (chapter 8). -/
theorem test_adoption :
    gives (exec (.frameArrival (frameOf 3 118 (oneWord 9 2)).bytes) joining) (fun t =>
      t.sources[3].known && t.sources[3].expected == 119 && t.aq.entries.map AqEntry.base == [8200] &&
        t.attn.queue.map Incident.what == [.sourceAdopted 3 118] &&
        t.out.sending.map (fun f => f.hops) == some 2) = true := by decide +kernel

/-- A gap at NORMAL (chapter 6, step 3): 39 where 38 is expected is not taken and goes on with NAK 1. -/
theorem test_gap :
    gives (exec (.frameArrival (frameOf 3 39 (oneWord 9 2)).bytes) (knows 3 38 (running .active))) (fun t =>
      t.sources[3].expected == 38 && t.sources[3].gaps == 1 && t.aq.entries == [] &&
        t.out.sending.map Frame.nak == some true) = true := by decide +kernel

/-- The transmission ends and the next queued entry departs. -/
theorem test_transmission_completion :
    gives (exec .transmissionCompletion (busy (withQueued 2 (running .active)))) (fun t =>
      t.pq.class2.length == 1 && t.orig.flight.map IflEntry.seq == [0] && t.out.starvation == 0) = true := by
  decide +kernel

/-- RTO is 2,000: at 2,000 the head goes back, RTF 6, resent with retry 1 (chapter 5, a give-up, first row). -/
theorem test_return_timer :
    gives (exec .returnTimerExpiry (at_ 2000 (flying 1 0 .sent (running .active)))) (fun t =>
      t.node.rtf == 6 && t.orig.flight.map (fun f => (f.retry, f.state)) == [(1, .sent)]) = true := by decide +kernel

/-- The announce timer expires: retry 1, sent again, RTF 6 (chapter 5, a give-up, last row). -/
theorem test_announce_timer :
    gives (exec .announceTimerExpiry (at_ 2000 joining)) (fun t =>
      t.node.rtf == 6 && t.orig.announce.map (fun r => (r.retry, r.state)) == some (1, .sent)) = true := by
  decide +kernel

/-- The backoff of 20 expires and the head is resent (chapter 5, step 6). -/
theorem test_backoff :
    gives (exec .backoffExpiry (at_ 1029 { flying 3 1 .awaitingResend (running .active) with
      orig := { (flying 3 1 .awaitingResend (running .active)).orig with backoff := some 1009 } })) (fun t =>
      t.orig.backoff == none && t.orig.flight.map IflEntry.state == [.sent, .awaitingResend, .awaitingResend]) = true := by
  decide +kernel

/-- LIF 90 and one bad frame: 96, DEGRADED, LEVEL_CHANGE (chapter 8, step 1). -/
theorem test_bad_frame_degrades :
    gives (exec (.frameArrival [0]) (faulty 90 20 .normal (running .active))) (fun t =>
      t.node.lif == 96 && t.node.level == .degraded && t.attn.queue.map Incident.what == [.levelChange]) = true := by
  decide +kernel

/-! ## Resets, timebase and the management port (chapters 8 to 11) -/

theorem test_timebase : gives (exec .timebaseAdvance (at_ 0xFFFFFFFF (running .active))) (fun t => t.node.timebase == 0) = true := by
  decide +kernel

/-- The fall of RESET_N: HRDY low, ATTN high, the outbound link QUIET (R193). -/
theorem test_hard_reset :
    gives (exec .hardReset (running .active)) (fun t =>
      t.hrdy == false && t.attnLow == false && t.link.outbound == .quiet && t.node.mode == .offline) = true := by
  decide +kernel

theorem test_reset_release :
    gives (exec (.resetRelease 4) (fallen (running .active))) (fun t =>
      t.node.nodeId == 4 && t.hrdy && t.link.outbound == .running) = true := by decide +kernel

theorem test_transaction_begin :
    gives (exec .transactionBegin State.reset) (fun t =>
      t.mgmt.txn.port == .receiving && t.mgmt.mdo == some false) = true := by decide +kernel

/-- A removal pending in TRAILING is taken; one pending in RESPONDING is abandoned (R171, R177). -/
theorem test_transaction_end :
    gives (exec .transactionEnd (running .active)) (fun t => t == running .active) = true ∧
    gives (exec .transactionEnd (selected (running .active))) (fun t => t.mgmt.txn == Transaction.idle) = true := by
  decide +kernel

/-- READ_PARAMS after a hard reset (R189). -/
theorem test_read_params :
    gives (exec .readParams (selected State.reset)) (fun t =>
      t.mgmt.txn.response == some [0x00, 0x07, 0xD0, 0x00, 0x32, 0x10, 0x00, 0x14]) = true := by decide +kernel

/-- The second and third SET_PARAMS of chapter 10: RETRY_LIMIT 0 is BAD_ARG, 8 is OK. -/
theorem test_set_params :
    gives (exec (.setParams 1000 0 0 40) (selected State.reset)) (fun t => t.mgmt.txn.response == some [0x03]) = true ∧
    gives (exec (.setParams 1000 0 8 40) (selected State.reset)) (fun t =>
      t.mgmt.txn.response == some [0x00] && t.node.params.rto == 1000) = true := by decide +kernel

theorem test_ident :
    gives (exec .ident (selected (running .active))) (fun t =>
      t.mgmt.txn.response == some [0x00, 0x24, 0x16, 0x01, 0x02]) = true := by decide +kernel

/-- STATUS has 38 data bytes; ACTIVE at NORMAL with node ID 2 is 0x82 (R192). -/
theorem test_status :
    gives (exec .status (selected (running .active))) (fun t =>
      t.mgmt.txn.response.map List.length == some 39 &&
        t.mgmt.txn.response.map (List.take 2) == some [0x00, 0x82]) = true := by decide +kernel

/-- A window after a hard reset reads as twelve bytes of 0 (R190); W0 of the example as its layout. -/
theorem test_read_window :
    gives (exec (.readWindow 5) (selected (running .active))) (fun t =>
      t.mgmt.txn.response == some (List.replicate 13 0)) = true ∧
    gives (exec (.readWindow 0) (selected (running .active))) (fun t =>
      t.mgmt.txn.response == some [0x00, 0x60, 0x00, 0x10, 0x00, 0x0A, 0x07, 0x02, 0, 0, 0, 0, 0]) = true := by
  decide +kernel

/-- Steps 4 and 13 of the window table example: BUSY, and BAD_ARG for a base that is no multiple of the size. -/
theorem test_write_window :
    gives (exec (.writeWindow 0 0 4096 10 8 2 1 0) (selected (running .offline))) (fun t =>
      t.mgmt.txn.response == some [0x01]) = true ∧
    gives (exec (.writeWindow 3 1 8300 4 20 0 0 0) (selected (running .offline))) (fun t =>
      t.mgmt.txn.response == some [0x03]) = true := by decide +kernel

/-- Step 1: never written; step 6: W1 at base 4,352 overlaps the enabled OWNED W0. -/
theorem test_enable_window :
    gives (exec (.enableWindow 0) (selected State.reset)) (fun t => t.mgmt.txn.response == some [0x02]) = true ∧
    gives (exec (.enableWindow 1) (selected { running .offline with
        windows := (running .offline).windows.set 1 { w1 with enabled := false, base := 4352 } })) (fun t =>
      t.mgmt.txn.response == some [0x04, 0x00]) = true := by decide +kernel

/-- Disabling W1 voids its WAITING entries and leaves the WRITING one (chapter 2). -/
theorem test_disable_window :
    gives (exec (.disableWindow 1) (selected (applying 0x000F 3 (running .active)))) (fun t =>
      t.aq.entries.map AqEntry.acc == [51] && t.windows[1].enabled == false) = true := by decide +kernel

theorem test_clear_window :
    gives (exec (.clearWindow 16) (selected (running .active))) (fun t => t.mgmt.txn.response == some [0x03]) = true := by
  decide +kernel

/-- FLUSH 2 with two entries of W0: data 2 and DIVERGED on W0 (chapter 2). -/
theorem test_flush :
    gives (exec (.flush 2) (selected (busy (withQueued 2 (running .active))))) (fun t =>
      t.mgmt.txn.response == some [0x00, 0x02] && t.pq.class2 == [] && t.windows[0].diverged &&
        t.attn.queue.map Incident.what == [.divergedMarked 0]) = true := by decide +kernel

theorem test_read_source :
    gives (exec (.readSource 3) (selected (knows 3 119 (running .active)))) (fun t =>
      t.mgmt.txn.response == some [0x00, 0x01, 119, 0, 0, 0, 0, 0, 0, 0, 0]) = true := by decide +kernel

/-- START before the link is UP is NO_LINK; after it the ANNOUNCE goes out with start 0 (chapter 8, steps 2 and 5, 6). -/
theorem test_start :
    gives (exec .start (selected State.reset)) (fun t => t.mgmt.txn.response == some [0x05]) = true ∧
    gives (exec .start (selected (running .offline))) (fun t =>
      t.mgmt.txn.response == some [0x00] && t.node.mode == .joining &&
        t.orig.announce.map (fun r => (r.startSeq, r.retry, r.state)) == some (0, 0, .sent)) = true := by decide +kernel

theorem test_stop :
    gives (exec .stop (selected (running .active))) (fun t =>
      t.node.mode == .offline && t.attn.queue.map Incident.what == [.drainDone]) = true := by decide +kernel

/-- A soft reset: next_seq kept, W0 DIVERGED by its discarded entries with no cause left (chapter 10). -/
theorem test_soft_reset :
    gives (exec .softReset (selected (busy (withQueued 2 (running .active))))) (fun t =>
      t.node.mode == .offline && t.windows[0].diverged && t.attn == Attention.reset) = true := by decide +kernel

theorem test_read_events :
    gives (exec .readEvents (selected State.reset)) (fun t =>
      t.mgmt.txn.response == some [0x00, 0, 0, 0, 0, 0]) = true := by decide +kernel

/-- Bit 14 names no cause (R161, R168, R169). -/
theorem test_set_enables :
    gives (exec (.setEnables 0x4000) (selected State.reset)) (fun t => t.mgmt.txn.response == some [0x03]) = true ∧
    gives (exec (.setEnables 0x0054) (selected State.reset)) (fun t => t.attn.enableSet == 0x0054) = true := by
  decide +kernel

theorem test_ack_events :
    gives (exec (.ackEvents 0x0001) (selected { State.reset with attn := { Attention.reset with raisedSet := 0x0003 } }))
      (fun t => t.mgmt.txn.response == some [0x00, 0x00, 0x02] && t.attn.raisedSet == 0x0002) = true := by
  decide +kernel

/-- An empty queue: no record present, thirteen data bytes of 0 (R191). -/
theorem test_take_incident :
    gives (exec .takeIncident (selected State.reset)) (fun t =>
      t.mgmt.txn.response == some (List.replicate 14 0) && t.mgmt.txn.removal == none) = true := by decide +kernel

theorem test_unknown_command :
    gives (exec (.unknownCommand 0x32) (selected State.reset)) (fun t => t.mgmt.txn.response == some [0x06]) = true := by
  decide +kernel

/-- A rising edge samples MDI. -/
theorem test_mclk_edge :
    gives (exec (.mclkEdge (.rising true)) (selected State.reset)) (fun t =>
      t.mgmt.txn.bitCount == 1 && t.mgmt.txn.shift == 1 && t.mgmt.mclk) = true := by decide +kernel

/-! ## Laws and premises as tests -/

def memoryLaw? (s : State) : Bool := decide (MemoryLaw s)
def capacityLaw? (s : State) : Bool := decide (CapacityLaw s)
def windowLaw? (s : State) : Bool := decide (WindowLaw s)
def modeLaw? (s : State) : Bool := decide (ModeLaw s)
def levelLaw? (s : State) : Bool := decide (LevelLaw s)
def hostLaw? (s : State) : Bool := decide (HostLaw s)
def flightLaw? (s : State) : Bool := decide (FlightLaw s)
def queueLaw? (s : State) : Bool := decide (QueueLaw s)
def linkLaw? (s : State) : Bool := decide (LinkLaw s)
def portLaw? (s : State) : Bool := decide (PortLaw s)
def resetHeld? (s : State) : Bool := decide (ResetHeld s)
def settled? (s : State) : Bool := decide (Settled s)
def momentLaw? (s : State) : Bool := decide (MomentLaw s)
def driveLaw? (s : State) : Bool := decide (DriveLaw s)
def accepting? (s : State) : Bool := decide (Accepting s)
def arriving? (s : State) (bytes : List Byte) : Bool := decide (Arriving s bytes)
def completing? (s : State) (bytes : List Byte) : Bool := decide (Completing s bytes)
def matchedBy? (s : State) (w : WordAddr) (i : WinIdx) : Bool := decide (MatchedBy s w i)
def inEnabled? (s : State) (i : WinIdx) (w : WordAddr) : Bool := decide (InEnabled s i w)

/-! ## The premises of the statements can be met

One theorem for each statement with premises: a state and operands for each of its clauses, at the ends of their ranges. -/

theorem witness_StepRunsTheFrontCommand :
    (State.reset.withPending [.ident]).pending = .ident :: [] ∧ State.reset.pending = [] := by decide

/-- No byte enables inside W0, and the words below and above W0. -/
theorem witness_PlainWriteRequestsMemory :
    let s := running .active
    settled? s ∧ accepting? s ∧ (∀ i : WinIdx, ¬inEnabled? s i ((16383 : ByteAddr).extractLsb' 2 22)) ∧
      ∀ i : WinIdx, ¬inEnabled? s i ((20480 : ByteAddr).extractLsb' 2 22) := by decide +kernel

/-- The first and the last word of an entry's span, and one past it. -/
theorem witness_ReadIsHeldForPendingUpdates :
    let s := applying 0xF00F 2 (running .active)
    settled? s ∧ accepting? s ∧ (∀ a ∈ s.aq.entries, a.covers 8204 = false) ∧
      (s.aq.entries[1]?.map fun a => (a.covers 8200, a.covers 8203)) = some (true, true) := by decide +kernel

/-- The first and the last word of W0 in OFFLINE and DRAINING, and of W1. -/
theorem witness_UnpublishedAndLocalWritesMarkTheirWindow :
    (∀ m : Mode, m = .offline ∨ m = .draining →
      settled? (running m) ∧ accepting? (running m) ∧ matchedBy? (running m) 4096 0 ∧ matchedBy? (running m) 5119 0) ∧
    matchedBy? (running .active) 8192 1 ∧ matchedBy? (running .active) 8447 1 ∧
    (running .active).windows[1].kind = .mirror ∧ (running .active).windows[1].policy = .accept := by
  refine ⟨fun m h => ?_, ?_⟩
  · rcases h with rfl | rfl <;> decide +kernel
  · decide +kernel

/-- W2 alone enabled over its words. -/
theorem witness_RefusedWriteCompletesAtAcceptance :
    let s := (running .active).setWindow 1 { w1 with enabled := false }
    settled? s ∧ accepting? s ∧ matchedBy? s 8320 2 ∧ matchedBy? s 8383 2 ∧ s.windows[2].kind = .mirror ∧
      s.windows[2].policy = .refuse := by decide +kernel

def refusing (presented : Option HostCycle) : State :=
  (running .active).withHost { HostPath.reset with refusedDelay := true, presented := presented }

theorem witness_RefusedWriteIsSignalledWithHerr :
    let c : HostCycle := { addr := 0, dir := .read, lanes := 15, data := 0 }
    settled? (refusing none) ∧ (refusing none).host.path = .free ∧ (refusing none).host.presented = none ∧
      settled? (refusing (some c)) ∧ (refusing (some c)).host.strobeHighSince = true ∧
      c ∈ (refusing (some c)).host.presented := by decide +kernel

/-- A tail that combines and an empty list, with a transmission in progress; 27 low entries leave room, 31 in all. -/
theorem witness_PublishWriteIsCaptured :
    let s := busy (withQueued 27 (running .active))
    settled? s ∧ accepting? s ∧ matchedBy? s 4100 0 ∧ s.windows[0].kind = .owned ∧ s.out.sending.isSome = true ∧
      (s.pq.classList 2).getLast? = some (queued 2) ∧ (queued 2).span = BitVec.ofNat 18 ((4100 - 4096) / 4) ∧
      matchedBy? s 5119 0 ∧ (queued 2).span ≠ BitVec.ofNat 18 ((5119 - 4096) / 4) ∧ s.pq.total < 32 ∧ s.pq.low < 28 ∧
      settled? (busy joining) ∧ (busy joining).node.mode = .joining := by decide +kernel

theorem witness_PublishWriteDepartsOnAnIdleLink :
    let s := flying 15 0 .sent (running .active)
    settled? s ∧ accepting? s ∧ matchedBy? s 4096 0 ∧ s.windows[0].kind = .owned ∧ s.out.sending = none ∧
      s.link.outbound = .running ∧ s.orig.flight.length < 16 ∧ s.orig.resend = none := by decide +kernel

/-- 28 low entries, under PHL 50 and PHL 0. -/
theorem witness_PublishWriteWithoutRoomIsHeld :
    let s := busy (withQueued 28 (running .active))
    let z := s.withNode { s.node with params := { Params.default with phl := 0 } }
    settled? s ∧ accepting? s ∧ matchedBy? s 4104 0 ∧ s.windows[0].kind = .owned ∧ s.node.params.phl ≠ 0 ∧
      (s.pq.classList 2).getLast? = some (queued 2) ∧ (queued 2).span ≠ BitVec.ofNat 18 ((4104 - 4096) / 4) ∧
      ¬(s.pq.total < 32 ∧ s.pq.low < 28) ∧ settled? z ∧ accepting? z ∧ z.node.params.phl = 0 := by decide +kernel

theorem witness_PublishHoldExpiryDemotesTheWrite :
    let s := at_ 50 (held (running .active))
    settled? s ∧ hostLaw? s ∧ s.host.hold = .publishHold ∧
      s.node.params.phl.toNat ≤ (s.node.timebase - s.host.holdStart).toNat ∧ s.host.cycle.isSome = true ∧
      s.pq.held.isSome = true := by decide +kernel

theorem witness_HostWriteCycleCompletes :
    let s := serving .write (running .active)
    settled? s ∧ memoryLaw? s ∧ settled? (presenting true s) ∧ settled? (presenting false s) ∧
      s.host.presented = none ∧ s.resetN = true ∧
      s.arb.cycle = some { grant := .host, word := 4096, dir := .write, lanes := 5, data := 0xAABBCCDD } := by
  decide +kernel

theorem witness_HostReadCycleReturnsMemory :
    let s := serving .read (running .active)
    settled? s ∧ settled? (presenting true s) ∧ settled? (presenting false s) ∧
      s.arb.cycle = some { grant := .host, word := 4096, dir := .read, lanes := 5, data := 0xAABBCCDD } := by
  decide +kernel

/-- One present position and two; a held read whose mark is before, and at, the entry behind; the entry behind it is
of the window that DISABLE_WINDOW names at the completion. -/
theorem witness_ApplyWordCycleCompletes :
    let s (mask : SpanMask) (mark : AccNo) : State := readHeld mark (selected (applying mask 2 (running .active)))
    settled? (s 0x000F 51) ∧ memoryLaw? (s 0x000F 51) ∧ hostLaw? (s 0x000F 51) ∧ settled? (s 0x00FF 52) ∧
      hostLaw? (s 0x00FF 52) ∧ (s 0x00FF 52).arb.lastGrant = .apply ∧
      (s 0x00FF 52).arb.cycle.map (fun m => (m.grant, m.dir)) = some (.apply, .write) ∧
      (s 0x00FF 52).aq.entries.map (fun a => (a.acc, a.state, a.next)) = [(51, .writing, 0), (52, .waiting, 0)] ∧
      present 0x00FF 1 = true ∧ present 0x000F 1 = false ∧ ¬((51 : AccNo) - 52).toNat < 32768 ∧
      ((52 : AccNo) - 52).toNat < 32768 ∧
      queueLaw? (s 0x000F 52) ∧ settled? (s 0x000F 52) ∧ hostLaw? (s 0x000F 52) ∧ (s 0x000F 52).host.hold = .readHold ∧
      completing? (s 0x000F 52) [0x13, 1] ∧ completing? (s 0x000F 52) [0x0A] ∧
      (∀ b ∈ (s 0x000F 52).aq.entries.tail, b.window = 1) ∧ (s 0x000F 52).windows[1].kind = .mirror ∧
      (s 0x000F 52).windows[1].enabled = true := by decide +kernel

/-- A command that brings choices about and one that does not; a free port with each of the row's requests. -/
theorem witness_MemoryArbiterChoosesByItsRows :
    let freed (last : Requester) (s : State) : State := s.withArb { cycle := none, lastGrant := last }
    let both (last : Requester) := freed last (hosting .requesting .noHold (readOf 0) (applying 15 1 (running .active)))
    let holding := freed .apply (hosting .holding .readHold (readOf 8200) (applying 15 1 (running .active)))
    let alone := freed .host (hosting .requesting .noHold (readOf 0) (running .active))
    (holding.host.hold = .readHold ∧ holding.aq.entries ≠ []) ∧
    ((both .apply).arb.lastGrant = .apply ∧ (both .host).arb.lastGrant = .host ∧
      (hostRequest (both .host)).isSome = true ∧ (both .host).aq.entries ≠ []) ∧
    ((hostRequest alone).isSome = true ∧ alone.aq.entries = []) ∧
    (hostRequest (running .active) = none ∧ (running .active).aq.entries = []) ∧
    (running .active).moments = [] ∧ gives (exec .hardReset (running .active)) (fun _ => true) = true ∧
    gives (exec .hstbNRelease (running .active)) (fun _ => true) = true := by decide +kernel

/-- NO_SIGNAL, ALIGNING, UP with and without a partial frame; 2 µs after the last transition. -/
theorem witness_SignalIsFoundAndLost :
    State.reset.link.inbound = .noSignal ∧
    (∀ a ∈ [none, some [1]], let s := at_ 2 (linked .up 32 0 a (running .active))
      settled? s ∧ s.resetN = true ∧ 2 ≤ (s.node.timebase - s.link.lastTransition).toNat) ∧
    let s := at_ 2 (linked .aligning 5 0 none (running .active))
    settled? s ∧ s.link.inbound = .aligning ∧ 2 ≤ (s.node.timebase - s.link.lastTransition).toNat := by decide +kernel

theorem witness_LinkComesUpAndLosesAlignment :
    settled? (linked .aligning 31 0 none (running .active)) ∧ settled? (linked .up 32 3 none (running .active)) ∧
      settled? (linked .up 32 0 (some [1]) (running .active)) ∧
      (linked .up 32 0 (some [1]) (running .active)).link.assembly.isSome = true := by decide +kernel

/-- A partial frame of 27 bytes, invalid runs 0, 2 and 3. -/
theorem witness_FrameIsCutOff :
    ∀ run ∈ [0, 2, 3], let s := linked .up 32 run (some (List.replicate 27 0)) (running .active)
      settled? s ∧ s.resetN = true ∧ s.link.inbound = .up ∧ s.link.assembly.isSome = true := by decide +kernel

theorem witness_SymbolsAreReceived :
    (fallen State.reset).link.inbound = .noSignal ∧
    (settled? (linked .aligning 30 0 none (running .active)) ∧ codeGroup .idle = some 0b0100111100) ∧
    (classifyGroup 0 = .invalid ∧ classifyGroup 0x3FF = .invalid ∧ classifyGroup 0b0100000000 = .invalid) ∧
    (settled? (linked .up 32 2 none (running .active)) ∧ codeGroup .startFrame = some 0b0100001111) ∧
    settled? (linked .up 32 0 (some (List.replicate 26 0)) (running .active)) := by decide +kernel

theorem witness_RunRowsAreTheirLastSymbol :
    let s := linked .up 32 0 (some (List.replicate 27 0)) (running .active)
    (s.link.assembly.map List.length = some 27 ∧ s.link.inbound = .up) ∧
    (codeGroup (.data 5) = some 0b1000000101 ∧ codeGroup .idle = some 0b0100111100) ∧
    (linked .aligning 31 0 none s).link.validRun = 31 ∧ (linked .up 32 3 none s).link.invalidRun = 3 ∧
    ∀ g ∈ [0, 0x3FF, 0b0100000000, 0b1101000001], classifyGroup g = .invalid := by decide +kernel

/-- An empty frame and one of 27 bytes are bad; a partial frame that the bytes continue; LIF 89 stays below 96. -/
theorem witness_BadFrameIsDiscarded :
    parseFrame [] = none ∧ parseFrame (List.replicate 27 0) = none ∧ arriving? (running .active) [] ∧
      settled? (running .active) ∧ settled? (running .offline) ∧ arriving? (running .offline) (List.replicate 27 0) ∧
      arriving? (linked .up 32 0 (some [0, 0]) (running .active)) (List.replicate 27 0) ∧
      (faulty 89 95 .normal (running .active)).node.lif.toNat + 6 < 96 ∧
      settled? (faulty 89 95 .normal (running .active)) := by decide +kernel

/-- A foreign frame with hops 14 and with hops 15, the Transit FIFO with a place and full. -/
theorem witness_OrphansAndOfflineForwarding :
    ∀ hops ∈ [(14 : BitVec 4), 15], let f : Frame := { frameOf 3 9 (oneWord 9 2) with hops := hops }
      parseFrame f.bytes = some f ∧
      (∀ s ∈ [selected (running .offline), busy (running .offline), crowded (running .offline)],
        settled? s ∧ modeLaw? s ∧ linkLaw? s ∧ arriving? s f.bytes ∧ f.source ≠ s.node.nodeId) ∧
      completing? (selected (running .offline)) [0x0A] := by decide +kernel

/-- NORMAL and DEGRADED with the level that a good frame restores, and with one that it does not. -/
theorem witness_AnnounceRebasesItsSource :
    ∀ hops ∈ [(14 : BitVec 4), 15], let f : Frame := { frameOf 3 9 .announce with hops := hops }
      parseFrame f.bytes = some f ∧
      (∀ s ∈ [running .active, crowded (running .draining), faulty 64 63 .degraded (running .active),
          faulty 65 63 .degraded (running .active)],
        settled? s ∧ modeLaw? s ∧ levelLaw? s ∧ arriving? s f.bytes ∧ f.source ≠ s.node.nodeId) ∧
      settled? joining ∧ modeLaw? joining ∧ arriving? joining f.bytes := by decide +kernel

/-- A free memory port with its marker, a write in PUBLISH_HOLD, four transit frames behind a transmission, and LIF at 238 or
239, which the good frame and its transit drop take to 240 or 241. -/
def aboutToIsolate (last : Requester) (lif : Byte) : State :=
  knows 3 9 (faulty lif 0 .degraded { crowded (held (running .active)) with
    aq := ApplyQueue.reset
    arb := { cycle := none, lastGrant := last } })

/-- The transit drop of an UPDATE in order and of a DEGRADED skip isolates the node: its entry is WAITING behind the demoted
write with the marker APPLY, and WRITING with the marker HOST; at LIF 237 the node is not isolated (R48, R133, R154). -/
theorem test_isolated_by_transit_drop :
    ∀ q ∈ [(9 : Byte), 10], let arrival : Instr := .frameArrival (frameOf 3 q (oneWord 9 2)).bytes
      (∀ lif ∈ [(238 : Byte), 239],
        gives (exec arrival (aboutToIsolate .apply lif)) (fun t => t.node.level == .isolated &&
          t.arb.cycle.map MemCycle.grant == some .host && t.aq.entries.map AqEntry.state == [.waiting]) = true ∧
        gives (exec arrival (aboutToIsolate .host lif)) (fun t => t.node.level == .isolated &&
          t.arb.cycle.map MemCycle.grant == some .apply && t.aq.entries.map AqEntry.state == [.writing]) = true) ∧
      gives (exec arrival (aboutToIsolate .apply 237)) (fun t => t.node.level == .degraded &&
        t.arb.cycle.map MemCycle.grant == some .apply && t.aq.entries.map AqEntry.state == [.writing]) = true := by
  decide +kernel

/-- No window (channel 8), the OWNED W0 (channel 7), the last span of W1 and the one past it, from a KNOWN and an UNKNOWN
source, with room for one entry and with none, and where the transit drop isolates the node. -/
theorem witness_UpdateInOrderIsTaken :
    let meets (body : FrameBody) (s : State) : Bool :=
      let f := frameOf 3 9 body
      parseFrame f.bytes = some f && f.hops != 15 && settled? s && modeLaw? s && levelLaw? s && windowLaw? s &&
        arriving? s f.bytes && f.source != s.node.nodeId && s.node.mode != .offline &&
        (!s.sources[f.source].known || s.sources[f.source].expected == f.seq)
    let unknown := running .active
    let one := knows 3 9 (applying 15 23 (running .active))
    let none := knows 3 9 (applying 15 24 (running .active))
    (∀ body ∈ [oneWord 8 0, oneWord 7 0, oneWord 9 63, oneWord 9 64], meets body unknown ∧ meets body one ∧
      ∀ last ∈ [Requester.host, .apply], ∀ lif ∈ [(237 : Byte), 238, 239], meets body (aboutToIsolate last lif)) ∧
      (one.aq.entries.length < 24) ∧
      (∀ body ∈ [oneWord 8 0, oneWord 7 0, oneWord 9 64], meets body none) ∧
      none.windows[0].kind = .owned ∧ 2 ^ none.windows[1].sizeCode.toNat ≤ 4 * 64 ∧
      4 * 63 < 2 ^ none.windows[1].sizeCode.toNat := by decide +kernel

/-- The last span of W1 with 24 entries: NORMAL, DEGRADED at LIF 64, and DEGRADED at LIF 65; an UNKNOWN source. -/
theorem witness_UpdateWithoutRoomIsObjectedToOrDropped :
    let f := frameOf 3 9 (oneWord 9 63)
    let s := knows 3 9 (applying 15 24 (running .active))
    parseFrame f.bytes = some f ∧ Carries s 1 9 ∧ s.windows[1].kind = .mirror ∧ 4 * 63 < 2 ^ s.windows[1].sizeCode.toNat ∧
      (∀ u ∈ [s, faulty 64 63 .degraded s, faulty 65 63 .degraded s, applying 15 24 (running .active)],
        settled? u ∧ modeLaw? u ∧ levelLaw? u ∧ windowLaw? u ∧ arriving? u f.bytes ∧ f.source ≠ u.node.nodeId ∧
          u.aq.entries.length = 24 ∧ (u.sources[f.source].known = true → u.sources[f.source].expected = f.seq)) ∧
      ObjectsAfterGoodFrame s ∧ ObjectsAfterGoodFrame (faulty 64 63 .degraded s) ∧
      ¬ObjectsAfterGoodFrame (faulty 65 63 .degraded s) := by decide +kernel

/-- Distances 1, 127, 128 and 255, at NORMAL and at DEGRADED; with no window (channel 8), the OWNED W0, the last span of W1
and the one past it, with room for one entry and with none, and where the transit drop isolates the node. -/
theorem witness_GapsAndDuplicates :
    let one := knows 3 9 (applying 15 23 (running .active))
    let none := knows 3 9 (applying 15 24 (running .active))
    let meets (d : Nat) (body : FrameBody) (s : State) : Bool :=
      let f := frameOf 3 (BitVec.ofNat 8 (9 + d)) body
      parseFrame f.bytes = some f && (f.seq.toNat + 256 - 9) % 256 == d && settled? s && modeLaw? s && levelLaw? s &&
        windowLaw? s && arriving? s f.bytes && f.source != s.node.nodeId && s.sources[f.source].known
    (∀ d ∈ [1, 127, 128, 255], meets d (oneWord 9 2) one) ∧
      (∀ body ∈ [oneWord 8 0, oneWord 7 0, oneWord 9 63, oneWord 9 64],
        ∀ s ∈ [one, none, faulty 70 0 .degraded one, faulty 70 0 .degraded none, aboutToIsolate .host 239,
          aboutToIsolate .apply 238, aboutToIsolate .apply 239], meets 1 body s) ∧
      ObjectsAfterGoodFrame one ∧ ¬ObjectsAfterGoodFrame (faulty 70 0 .degraded one) ∧
      ¬ObjectsAfterGoodFrame (aboutToIsolate .apply 238) ∧
      4 * 63 < 2 ^ one.windows[1].sizeCode.toNat ∧ 2 ^ one.windows[1].sizeCode.toNat ≤ 4 * 64 := by decide +kernel

/-- An own UPDATE that no entry carries, one with a stale attempt, one for an entry that awaits its resend, an ANNOUNCE
without a record and one with a stale attempt. -/
theorem witness_UnmatchedAndStaleReturns :
    let own := frameOf 2 255 (oneWord 7 3)
    let ann := frameOf 2 0 .announce
    parseFrame own.bytes = some own ∧ parseFrame ann.bytes = some ann ∧
      (∀ x ∈ (running .active).orig.flight, x.seq ≠ own.seq) ∧
      (∀ s ∈ [running .active, flying 1 1 .sent (running .active), flying 1 4 .awaitingResend (busy (running .active))],
        settled? s ∧ levelLaw? s ∧ flightLaw? s ∧ arriving? s own.bytes ∧ own.source = s.node.nodeId) ∧
      (∀ s ∈ [joining, running .active], settled? s ∧ levelLaw? s ∧ flightLaw? s ∧ arriving? s ann.bytes) ∧
      (∀ r ∈ joining.orig.announce, { ann with attempt := 1 }.attempt.toNat ≠ r.retry.toNat % 4) := by decide +kernel

/-- The last entry of a drain, and the head of two with a transmission in progress. -/
theorem witness_CleanReturnRetiresTheHead :
    let f := frameOf 2 255 (oneWord 7 3)
    let last := flying 1 0 .sent (running .draining)
    let g := frameOf 2 254 (oneWord 7 3)
    let two := flying 2 0 .sent (busy (running .active))
    (parseFrame f.bytes = some f ∧ settled? last ∧ modeLaw? last ∧ levelLaw? last ∧ flightLaw? last ∧ arriving? last f.bytes ∧
      last.orig.flight.map (fun e => (e.seq, e.state)) = [(f.seq, .sent)] ∧ last.pq.total = 0) ∧
    (parseFrame g.bytes = some g ∧ settled? two ∧ modeLaw? two ∧ flightLaw? two ∧ arriving? two g.bytes ∧
      two.orig.flight.head?.map IflEntry.seq = some g.seq) := by decide +kernel

/-- NAK for the second entry with NAK_BACKOFF 20, and its clean return out of order; RTF 233. -/
theorem witness_ObjectedAndOutOfOrderReturnsGoBack :
    ∀ nak ∈ [true, false], let f : Frame := { frameOf 2 255 (oneWord 7 3) with nak := nak }
      let s := faulty 0 233 .degraded (busy (flying 2 0 .sent (running .active)))
      parseFrame f.bytes = some f ∧ settled? s ∧ modeLaw? s ∧ levelLaw? s ∧ flightLaw? s ∧ arriving? s f.bytes ∧
        (∃ x ∈ s.orig.flight, x.state = .sent ∧ f.seq = x.seq ∧ f.attempt.toNat = x.retry.toNat % 4) ∧
        (∀ h ∈ s.orig.flight.head?, f.seq ≠ h.seq ∧ h.retry ≠ s.node.params.retryLimit) ∧
        s.node.rtf.toNat + 6 < 240 := by decide +kernel

theorem witness_JoinCompletes :
    let f := frameOf 2 0 .announce
    parseFrame f.bytes = some f ∧ (∀ s ∈ [joining, busy joining], settled? s ∧ modeLaw? s ∧ levelLaw? s ∧ arriving? s f.bytes ∧
      s.orig.announce.map (fun r => (r.state, r.startSeq, r.retry)) = some (.sent, f.seq, 0)) := by decide +kernel

/-- Every row of R74: no transit, an offer or none; transit without an offer; the limit 8 with 2 frames and with 3. -/
theorem witness_OutputArbiterChoosesByItsRows :
    let s (n k : Nat) : State :=
      (running .active).withOut { fifo := List.replicate n (frameOf 5 1 .announce), sending := none, starvation := k }
    let o (n k : Nat) := withQueued 1 (s n k)
    (originationOffer (o 0 0)).isSome = true ∧ originationOffer (s 0 0) = none ∧
      ((originationOffer (o 2 8)).isSome = true ∧ (o 2 8).out.starvation = 8 ∧ (o 2 8).out.fifo.length = 2) ∧
      ((originationOffer (o 3 8)).isSome = true ∧ 3 ≤ (o 3 8).out.fifo.length) ∧
      ((originationOffer (o 1 7)).isSome = true ∧ (o 1 7).out.starvation ≠ 8) ∧
      (originationOffer (s 4 0) = none ∧ (s 4 0).out.fifo ≠ []) ∧ (s 0 0).link.outbound = .running ∧
      (busy (s 4 8)).out.sending.isSome = true ∧ (busy (s 4 8)).moments = [] := by decide +kernel

/-- An ANNOUNCE that awaits its sending, the first of two entries to resend, and a new entry with 15 in flight; a write in
PUBLISH_HOLD that the departure of a class 2 entry makes room for, and one that a class 3 departure leaves held. -/
theorem witness_ChosenOffersAreCommitted :
    let waiting := busy (joining.withOrig { joining.orig with
      announce := some { startSeq := 0, retry := 1, state := .awaitingSend, departure := 0 } })
    let resending := flying 2 1 .awaitingResend (busy (running .active))
    let fresh := withQueued 1 (flying 15 0 .sent (busy (running .active)))
    (hostLaw? waiting ∧ modeLaw? waiting ∧ flightLaw? waiting ∧ queueLaw? waiting ∧
      waiting.orig.announce.map AnnounceRecord.state = some .awaitingSend) ∧
    (hostLaw? resending ∧ modeLaw? resending ∧ flightLaw? resending ∧ queueLaw? resending ∧ resending.orig.backoff = none ∧
      resending.orig.flight.head?.map IflEntry.seq = resending.orig.resend) ∧
    (hostLaw? fresh ∧ modeLaw? fresh ∧ flightLaw? fresh ∧ queueLaw? fresh ∧ fresh.orig.resend = none ∧
      (fresh.pq.classList 2).head? = some (queued 2) ∧ fresh.orig.flight.length < 16 ∧
      ∀ c : PrioClass, 2 < c → fresh.pq.classList c = []) ∧
    let holds := held (running .active)
    let crowded := holds.withPq { holds.pq with class3 := [queued 3] }
    ∀ s ∈ [holds, crowded],
      hostLaw? s ∧ modeLaw? s ∧ flightLaw? s ∧ queueLaw? s ∧ settled? s ∧ s.orig.resend = none ∧ s.out.fifo = [] ∧
        s.pq.held.isSome = true := by decide +kernel

/-- RTO 2,000 exactly, the head one below RETRY_LIMIT 16, RTF 233. -/
theorem witness_ReturnTimerExpiryGoesBack :
    ∀ s ∈ [at_ 2000 (faulty 0 233 .degraded (flying 2 15 .sent (running .active))),
        at_ 2000 (faulty 0 233 .degraded (flying 2 15 .sent (busy (running .active))))],
      settled? s ∧ modeLaw? s ∧ levelLaw? s ∧ flightLaw? s ∧ s.node.rtf.toNat + 6 < 240 ∧
        (∀ h ∈ s.orig.flight.head?, h.state = .sent ∧ h.retry ≠ s.node.params.retryLimit ∧
          s.node.params.rto.toNat ≤ (s.node.timebase - h.departure).toNat) ∧
        s.orig.flight.head?.isSome = true := by decide +kernel

/-- The head at RETRY_LIMIT 16 in ACTIVE, with RTF 233, and in DRAINING with an entry queued; the second entry returns
with NAK and clean. -/
theorem witness_GiveUpAbandonsTheList :
    ∀ s ∈ [at_ 2000 (faulty 0 233 .degraded (flying 2 16 .sent (running .active))),
        at_ 2000 (withQueued 1 (flying 2 16 .sent (busy (running .draining))))],
      settled? s ∧ hostLaw? s ∧ modeLaw? s ∧ levelLaw? s ∧ flightLaw? s ∧
        (∀ h ∈ s.orig.flight.head?, h.state = .sent ∧ h.retry = s.node.params.retryLimit ∧
          s.node.params.rto.toNat ≤ (s.node.timebase - h.departure).toNat) ∧
        s.orig.flight.head?.isSome = true ∧
        ∀ nak ∈ [true, false], let f : Frame := { frameOf 2 255 (oneWord 7 3) with nak := nak }
          parseFrame f.bytes = some f ∧ arriving? s f.bytes ∧ f.source = s.node.nodeId ∧
            ∃ x ∈ s.orig.flight, x.state = .sent ∧ f.seq = x.seq ∧ f.attempt.toNat = x.retry.toNat % 4 ∧
              x.seq ≠ 254 ∧ s.orig.flight.head?.map IflEntry.seq = some 254 := by decide +kernel

theorem witness_AnnounceAndBackoffTimersExpire :
    (∀ s ∈ [at_ 2000 joining, at_ 2000 (busy joining)],
      settled? s ∧ modeLaw? s ∧ levelLaw? s ∧ s.node.rtf.toNat + 6 < 240 ∧
        ∀ r ∈ s.orig.announce, r.state = .sent ∧ s.node.params.rto.toNat ≤ (s.node.timebase - r.departure).toNat) ∧
    ∀ s ∈ [flying 2 1 .awaitingResend (running .active), flying 2 1 .awaitingResend (busy (running .active))],
      let u := at_ 20 (s.withOrig { s.orig with backoff := some 0 })
      settled? u ∧ modeLaw? u ∧ flightLaw? u ∧ u.node.params.nakBackoff.toNat ≤ (u.node.timebase - 0).toNat := by
  decide +kernel

theorem witness_TimebaseAdvances : State.reset.resetN = true ∧ (fallen State.reset).resetN = false := by decide +kernel

/-- ACTIVE; OFFLINE without an UP link; OFFLINE with it, the outbound link idle and busy. -/
theorem witness_StartJoinsTheRing :
    (∀ s ∈ [selected (running .active), selected State.reset, selected (running .offline),
        selected (busy (running .offline))],
      settled? s ∧ modeLaw? s ∧ linkLaw? s ∧ completing? s [0x30]) ∧
    State.reset.link.inbound ≠ .up := by decide +kernel

/-- OFFLINE; DRAINING; ACTIVE with nothing and with something left and a write held; JOINING. -/
theorem witness_StopDrainsOrLeavesTheRing :
    ∀ s ∈ [selected (running .offline), selected (running .draining), selected (running .active),
        selected (held (running .active)), selected (busy (withQueued 1 joining))],
      settled? s ∧ hostLaw? s ∧ modeLaw? s ∧ completing? s [0x31] := by decide +kernel

/-- No cycle; a cycle in MEMORY; a write in PUBLISH_HOLD and a read in READ_HOLD with the port busy; a request at a free
port, which no run leaves so. -/
theorem witness_HardResetSetsEveryBlock :
    ∀ s ∈ [running .active, serving .write (running .active), held (running .active),
        hosting .holding .readHold (readOf 8200) (applying 15 1 (running .active)),
        hosting .requesting .noHold (readOf 0) (running .active)],
      hostLaw? s ∧ s.resetN = true := by decide +kernel

/-- Nothing presented; a new cycle presented; a cycle still running. -/
theorem witness_ResetReleaseSamplesTheNodeId :
    let presented := (fallen (running .active)).withHost
      { HostPath.reset with presented := some { addr := 0, dir := .read, lanes := 15, data := 0 } }
    ∀ s ∈ [fallen (running .active), presented, fallen (serving .read (running .active))],
      settled? s ∧ resetHeld? s ∧ s.resetN = false := by decide +kernel

/-- The head of the Apply Queue still WAITING while the port runs a word cycle of an entry removed before. -/
def voidable (s : State) : State :=
  let s := applying 15 2 s
  s.withAq { s.aq with entries := s.aq.entries.tail }

/-- No cycle, a held write, and reads held behind the WRITING head and behind WAITING entries alone. -/
theorem witness_SoftResetInEveryBlock :
    ∀ s ∈ [selected (running .active), selected (held (running .active)), selected (busy (withQueued 2 joining)),
        readHeld 51 (selected (applying 15 2 (running .active))), readHeld 51 (selected (voidable (running .active)))],
      settled? s ∧ hostLaw? s ∧ modeLaw? s ∧ completing? s [0x0A] := by decide +kernel

/-- A transaction of TAKE_INCIDENT with its response shifted out, and one still responding. -/
def taking (port : PortState) : State :=
  { running .active with
    attn := { Attention.reset with queue := [{ what := .drainDone, time := 7 }] }
    mgmt := { ManagementPort.reset with
      mselN := false
      txn := { Transaction.idle with
        port := port, command := some .takeIncident, response := some (List.replicate 14 0)
        position := if port = .trailing then 112 else 111, bitCount := if port = .trailing then 0 else 7
        removal := some { what := .drainDone, time := 7 } } } }

theorem witness_TransactionBeginsAndEnds :
    (State.reset.mgmt.mselN = true ∧ State.reset.mgmt.txn.port = .deselected) ∧
    ((taking .responding).mgmt.mselN = false ∧ (taking .responding).mgmt.txn.port ≠ .trailing) ∧
    ((taking .trailing).mgmt.txn.port = .trailing ∧ (taking .trailing).mgmt.txn.removal.isSome = true) := by
  decide +kernel

/-- A transaction with its command, argument bytes and bits so far. -/
def shifting (command : Option Command) (args : List Byte) (bitCount : Nat) (shift : Byte) (mclk : Bool) : State :=
  { State.reset with mgmt := { ManagementPort.reset with
      mselN := false, mclk := mclk
      txn := { Transaction.idle with
        port := .receiving, command := command, args := args, bitCount := bitCount, shift := shift } } }

/-- The last bit of START and of ENABLE_WINDOW 15; bit counts 0, 6 and 7; the first and the last response bit. -/
theorem witness_MclkShiftsOneBit :
    (spelled .start = [] ++ [0x30] ∧ completing? (shifting none [] 7 0x18 false) [0x30] ∧
      portLaw? (shifting none [] 7 0x18 false)) ∧
    (spelled (.enableWindow 15) = [0x12] ++ [15] ∧ completing? (shifting (some .enableWindow) [] 7 7 false) [0x12, 15] ∧
      portLaw? (shifting (some .enableWindow) [] 7 7 false) ∧
      (shifting (some .enableWindow) [] 7 7 false).mgmt.txn.received = [0x12]) ∧
    (∀ k ∈ [0, 6], portLaw? (shifting none [] k 0 false)) ∧
    (0 < (decodeCommand 0x41).argCount ∧ portLaw? (shifting (some .setEnables) [] 7 0 false)) ∧
    (portLaw? (taking .responding) ∧ portLaw? (taking .trailing) ∧ PortLaw State.reset ∧
      (taking .responding).mgmt.txn.position = 8 * 13 + 7) := by decide +kernel

theorem witness_ReadingCommandsReportASnapshot :
    (∀ bytes ∈ [[0x01], [0x40], [0x02], [0xFF]], completing? (selected (running .active)) bytes) ∧
      capacityLaw? (selected (running .active)) ∧ namedCodes.contains 0xFF = false := by decide +kernel

/-- RTO 15 and 16, RETRY_LIMIT 0 and 1, NAK_BACKOFF 1,023 and 1,024, in OFFLINE and ACTIVE. -/
theorem witness_ParametersAreReadAndWritten :
    completing? (selected State.reset) [0x03] ∧
    ([(15, 1, 1023), (16, 0, 1023), (16, 1, 1024), (16, 1, 1023)].all
      fun a : BitVec 16 × Byte × BitVec 16 =>
        completing? (selected (running .offline)) (spelled (.setParams a.1 0 a.2.1 a.2.2)) &&
        completing? (selected (running .active)) (spelled (.setParams a.1 0 a.2.1 a.2.2))) = true ∧
    State.reset.resetN = true ∧
    gives (exec (.setParams 16 0 1 1023) (selected State.reset)) (fun t => t.node.params != Params.default) = true := by
  decide +kernel

/-- Indices 15 and 16. -/
theorem witness_WindowsAreReadAndCleared :
    capacityLaw? (selected (running .active)) ∧
      ([15, 16].all fun n : Byte => completing? (selected (running .active)) [0x10, n] &&
        completing? (selected (running .active)) [0x14, n]) = true := by decide +kernel

/-- Indices 0 (enabled), 15 and 16; size codes 3, 4, 20 and 21; the highest base and one above. -/
theorem witness_WriteWindowChecksThenReplaces :
    ([(0, 4, 4096), (16, 4, 4096), (15, 3, 4096), (15, 21, 0), (15, 4, 4194304), (15, 4, 4194287), (15, 4, 4194288),
        (15, 20, 3145728)].all
      fun a : Byte × Byte × BitVec 24 =>
        completing? (selected (running .active)) (spelled (.writeWindow a.1 1 a.2.2 a.2.1 9 3 0 1))) = true := by decide +kernel

/-- Enabled, never written, in conflict by channel and by overlap, without conflict, and index 16. -/
theorem witness_EnableWindowChecksThenEnables :
    ([0, 1, 15, 16].all fun n : Byte => completing? (selected (running .active)) [0x12, n]) = true ∧
    (running .active).windows[0].enabled = true ∧ (running .active).windows[15].sizeCode = 0 ∧
    ¬w0.apart { w1 with base := 4352 } ∧ ¬w0.apart { w1 with base := 4864 } ∧ w0.apart { w1 with base := 5120 } := by
  decide +kernel

/-- An enabled OWNED and MIRROR window and a disabled one; a write in PUBLISH_HOLD on the window and not on it; a read in
READ_HOLD. -/
theorem witness_DisableWindowVoidsAndDemotes :
    (∀ s ∈ [selected (running .active), selected (held (running .active)),
        selected (hosting .holding .readHold (readOf 8200) (applying 15 2 (running .active)))],
      settled? s ∧ hostLaw? s ∧ ([0, 1, 15, 16].all fun n : Byte => completing? s [0x13, n]) = true) ∧
    (∀ c ∈ (held (running .active)).host.cycle, c.window = some 0) := by decide +kernel

/-- Classes 0 (empty), 2, 3 and 4; a held request that finds room in its class and one that finds none. -/
theorem witness_FlushEmptiesOneClass :
    let s := selected (held (running .active))
    let u := s.withPq { s.pq with class3 := [queued 3] }
    (∀ v ∈ [selected (busy (withQueued 2 (running .draining))), s, u],
      settled? v ∧ hostLaw? v ∧ modeLaw? v ∧ capacityLaw? v ∧ ([0, 2, 3, 4].all fun n : Byte => completing? v [0x20, n]) = true) ∧
    u.pq.classList 3 ≠ [] ∧ s.pq.classList 2 ≠ [] ∧ s.pq.classList 0 = [] ∧
    let d := selected (busy (withQueued 2 (running .draining)))
    d.node.mode = .draining ∧ (d.pq.setClassList 2 []).total = 0 ∧ d.orig.flight = [] := by decide +kernel

theorem witness_ReadSourceReportsTheEntry :
    ([0, 15, 16].all fun n : Byte => completing? (selected (running .active)) [0x28, n]) = true := by decide +kernel

/-- The causes of one event go in by number and window; at 7 records the first still finds room, and the others are
dropped with the overflow flag and, while a removal is pending, the drop flag (R163, R166, R173). -/
theorem test_incidents_of_one_event :
    let full : Attention := { Attention.reset with queue := List.replicate 7 { what := .linkChange, time := 7 } }
    let raised : List Occurrence := [.divergedMarked 3, .deliveryFailed 9, .divergedMarked 1, .drainDone]
    let t (s : State) : State := Event.commit { toState := s.withAttn full, raised := raised }
    inRankOrder raised = [.drainDone, .deliveryFailed 9, .divergedMarked 1, .divergedMarked 3] ∧
    (t (taking .responding)).attn.queue.map Incident.what = List.replicate 7 .linkChange ++ [.drainDone] ∧
    (t (taking .responding)).attn.raisedSet = 0b00100000010010 ∧ (t (taking .responding)).attn.overflow = true ∧
    (t (taking .responding)).mgmt.txn.dropFlag = true ∧ (t (running .active)).mgmt.txn.dropFlag = false := by
  decide +kernel

/-- The largest set of causes and the smallest with bit 14; an empty and a full Incident Queue; an expiry that raises two
causes; RESET_N high and low. -/
theorem witness_EventCommandsServeAttention :
    ([16383, 16384].all fun set : BitVec 16 => completing? (selected State.reset) (0x41 :: bytes16 set) &&
      completing? (selected State.reset) (0x42 :: bytes16 set)) = true ∧
    (completing? (selected State.reset) [0x43] ∧ capacityLaw? (selected State.reset)) ∧
    let full := selected (State.reset.withAttn { Attention.reset with
      queue := List.replicate 8 { what := .drainDone, time := 7 } })
    completing? full [0x43] ∧ capacityLaw? full ∧ full.attn.queue.head?.isSome = true ∧
    gives (exec .publishHoldExpiry (at_ 50 (held (running .active)))) (fun t => t.attn.queue.length == 2) = true ∧
    State.reset.resetN = true ∧ (fallen State.reset).resetN = false := by decide +kernel

/-- A node at work: captured entries, one sent, a write held, the memory port busy. -/
def working : State := withQueued 28 (flying 1 0 .sent (held (running .active)))

theorem working_lawful : Lawful working := by
  have h : (memoryLaw? working && capacityLaw? working && windowLaw? working && modeLaw? working && levelLaw? working &&
      hostLaw? working && flightLaw? working && queueLaw? working && linkLaw? working && portLaw? working &&
      resetHeld? working && momentLaw? working && driveLaw? working) = true := by decide +kernel
  simp only [memoryLaw?, capacityLaw?, windowLaw?, modeLaw?, levelLaw?, hostLaw?, flightLaw?, queueLaw?, linkLaw?,
    portLaw?, resetHeld?, momentLaw?, driveLaw?, Bool.and_eq_true, and_assoc] at h
  obtain ⟨h1, h2, h3, h4, h5, h6, h7, h8, h9, h10, h11, h12, h13⟩ := h
  exact ⟨of_decide_eq_true h1, of_decide_eq_true h2, of_decide_eq_true h3, of_decide_eq_true h4, of_decide_eq_true h5,
    of_decide_eq_true h6, of_decide_eq_true h7, of_decide_eq_true h8, of_decide_eq_true h9, of_decide_eq_true h10,
    of_decide_eq_true h11, of_decide_eq_true h12, of_decide_eq_true h13⟩

theorem witness_WindowTableLawIsKept : (∃ t, step working = .next t) ∧ MemoryLaw working ∧ WindowLaw working :=
  ⟨⟨_, rfl⟩, working_lawful.1, working_lawful.2.2.1⟩

theorem witness_QueueAndModeLawsAreKept : Lawful working ∧ ∃ t, step working = .next t := ⟨working_lawful, _, rfl⟩

theorem witness_PortLawsAreKept : Lawful working ∧ settled? working ∧ ∃ t, step working = .next t :=
  ⟨working_lawful, by decide +kernel, _, rfl⟩

/-- A write changes memory, the release the node ID, the advance the timebase, the command the enables. -/
theorem witness_OnlyTheseCommandsChangeThese :
    gives (exec (.memoryCycleCompletion 0) (serving .write (running .active))) (fun t => t.mem.readByte 16384 != 0) = true ∧
    gives (exec (.resetRelease 4) (fallen (running .active))) (fun t => t.node.nodeId != 2) = true ∧
    gives (exec .timebaseAdvance State.reset) (fun t => t.node.timebase != 0) = true ∧
    gives (exec .hardReset ((running .active).withOrig { Origination.reset with nextSeq := 5 })) (fun t =>
      t.orig.nextSeq == 0) = true ∧
    gives (exec (.setEnables 1) (selected State.reset)) (fun t => t.attn.enableSet != 0) = true := by decide +kernel

/-- An ANNOUNCE, and an UPDATE of one word and of four; a check that is one bit off, or low byte first. -/
theorem witness_FramesAreReadAsSent :
    presentCount 0x000F = [(0x11223344 : Word)].length ∧ presentCount 0x8421 = 4 ∧
      (parseFrame (frameOf 3 9 (.update 7 1 0x8421 [1, 2, 3, 4])).bytes).isSome = true ∧
      codeGroup (.data 0) = some 0b1000000000 ∧
      let body := (frameOf 3 9 .announce).checkedBytes
      let v := check body
      (parseFrame (body ++ [v.extractLsb' 8 8, v.extractLsb' 0 8])).isSome = true ∧
      v ≠ v.extractLsb' 8 8 ++ (v.extractLsb' 0 8 ^^^ 1) ∧ v ≠ v.extractLsb' 0 8 ++ v.extractLsb' 8 8 := by decide +kernel

end Sys2Proof.Tests
end

section
/-! SUPPORT. The replication windows (chapter 2). READ_WINDOW, WRITE_WINDOW and CLEAR_WINDOW: what each effect answers,
then the statements about their rows. -/

namespace Sys2Proof.Machine

/-! ## A completed row and its answer (R176) -/

/-- A row executes on the state with MCLK high; where its effect comes from `u` in the same way, `u` is answered. -/
theorem commandRow_answered {c : Command} {args response : List Byte} {s u : State}
    (hc : Completing s (c.code :: args)) (he : c.effect args (setMclk true s) = (setMclk true u, response)) :
    commandRow c args s = .next (u.answered c args response) := by
  rw [commandRow_eq, if_pos hc, executeCommand_eq, he]
  rfl

theorem exec_readWindow (n : Byte) (s : State) : exec (.readWindow n) s = commandRow .readWindow [n] s := rfl

theorem exec_clearWindow (n : Byte) (s : State) : exec (.clearWindow n) s = commandRow .clearWindow [n] s := rfl

theorem exec_writeWindow (n kind sizeCode channel cls combine policy : Byte) (base : BitVec 24) (s : State) :
    exec (.writeWindow n kind base sizeCode channel cls combine policy) s =
      commandRow .writeWindow (spelled (.writeWindow n kind base sizeCode channel cls combine policy)).tail s := rfl

/-- Three bytes received most significant first are the value they were sent from (R189). -/
theorem append_bytes24 (v : BitVec 24) : v.extractLsb' 16 8 ++ v.extractLsb' 8 8 ++ v.extractLsb' 0 8 = v := by
  rw [BitVec.extractLsb'_append_extractLsb'_eq_extractLsb' (by rfl),
    BitVec.extractLsb'_append_extractLsb'_eq_extractLsb' (by rfl), BitVec.extractLsb'_eq_self]

theorem effect_writeWindow (n kind sizeCode channel cls combine policy : Byte) (base : BitVec 24) (s : State) :
    Command.writeWindow.effect (spelled (.writeWindow n kind base sizeCode channel cls combine policy)).tail s =
      writeWindowEffect n kind base sizeCode channel cls combine policy s :=
  congrArg (fun b => writeWindowEffect n kind b sizeCode channel cls combine policy s) (append_bytes24 base)

/-! ## READ_WINDOW (R23, R25, R190) -/

/-- The flag byte of a window's record is the sum of its set bits' weights. -/
theorem windowFlags_eq : ∀ mirror enabled combine refuse diverged stale : Bool,
    bitAt mirror 7 ||| bitAt enabled 6 ||| bitAt combine 5 ||| bitAt refuse 4 ||| bitAt diverged 1 ||| bitAt stale 0 =
      BitVec.ofNat 8 ((if mirror = true then 128 else 0) + (if enabled = true then 64 else 0) +
        (if combine = true then 32 else 0) + (if refuse = true then 16 else 0) +
        (if diverged = true then 2 else 0) + (if stale = true then 1 else 0)) := by decide

theorem windowBytes_eq (w : Window) (queued : Nat) :
    windowBytes w queued =
      BitVec.ofNat 8 ((if w.kind = .mirror then 128 else 0) + (if w.enabled = true then 64 else 0) +
        (if w.combine = true then 32 else 0) + (if w.policy = .refuse then 16 else 0) +
        (if w.diverged = true then 2 else 0) + (if w.stale = true then 1 else 0)) ::
      (bytes24 (w.base.setWidth 24) ++ [w.sizeCode, w.channel, BitVec.ofNat 8 w.cls.val] ++ bytes32 w.updates ++
        [BitVec.ofNat 8 queued]) := by
  simp only [windowBytes, windowFlags_eq, decide_eq_true_eq]
  rfl

theorem queuedCount_of_owned {s : State} {i : WinIdx} (h : s.windows[i].kind = .owned) :
    queuedCount s i = (s.pq.entries.filter fun p => p.window = i).length := by
  rw [queuedCount, h]
  exact List.countP_eq_length_filter

theorem queuedCount_of_mirror {s : State} {i : WinIdx} (h : s.windows[i].kind = .mirror) :
    queuedCount s i = (s.aq.entries.filter fun a => a.window = i).length := by
  rw [queuedCount, h]
  exact List.countP_eq_length_filter

theorem readWindowEffect_of_ge {n : Byte} {s : State} (hn : 16 ≤ n.toNat) :
    readWindowEffect n s = (s, [statusBadArg]) := withIndex_of_ge n s _ hn

theorem readWindowEffect_of_lt {n : Byte} {s : State} {i : WinIdx} (hi : n.toNat = i.val) :
    readWindowEffect n s = (s, statusOk :: windowBytes s.windows[i] (queuedCount s i)) := withIndex_of_lt n s _ i hi

theorem readWindow_badIndex {n : Byte} {s : State} (hc : Completing s [0x10, n]) (hn : 16 ≤ n.toNat) :
    exec (.readWindow n) s = .next (s.answered .readWindow [n] [0x03]) :=
  (exec_readWindow n s).trans (commandRow_answered hc (readWindowEffect_of_ge hn))

theorem readWindow_record {n : Byte} {s : State} {i : WinIdx} (hc : Completing s [0x10, n]) (hi : n.toNat = i.val) :
    exec (.readWindow n) s =
      .next (s.answered .readWindow [n] (0x00 :: windowBytes s.windows[i] (queuedCount s i))) :=
  (exec_readWindow n s).trans (commandRow_answered hc (readWindowEffect_of_lt hi))

/-! ## CLEAR_WINDOW (R34) -/

theorem clearWindowEffect_of_ge {n : Byte} {s : State} (hn : 16 ≤ n.toNat) :
    clearWindowEffect n s = (s, [statusBadArg]) := withIndex_of_ge n s _ hn

theorem clearWindowEffect_of_lt {n : Byte} {s : State} {i : WinIdx} (hi : n.toNat = i.val) :
    clearWindowEffect n s =
      (s.setWindow i { s.windows[i] with diverged := false, stale := false }, [statusOk]) :=
  withIndex_of_lt n s _ i hi

theorem clearWindow_badIndex {n : Byte} {s : State} (hc : Completing s [0x14, n]) (hn : 16 ≤ n.toNat) :
    exec (.clearWindow n) s = .next (s.answered .clearWindow [n] [0x03]) :=
  (exec_clearWindow n s).trans (commandRow_answered hc (clearWindowEffect_of_ge hn))

theorem clearWindow_flags {n : Byte} {s : State} {i : WinIdx} (hc : Completing s [0x14, n]) (hi : n.toNat = i.val) :
    exec (.clearWindow n) s = .next
      ((s.setWindow i { s.windows[i] with diverged := false, stale := false }).answered .clearWindow [n] [0x00]) :=
  (exec_clearWindow n s).trans (commandRow_answered hc (clearWindowEffect_of_lt hi))

/-! ## WRITE_WINDOW (R26, R27) -/

/-- The argument bytes pass the checks of R26: each field holds one of its values and the base is a multiple of the
size. -/
def ValidConfiguration (kind : Byte) (base : BitVec 24) (sizeCode cls combine policy : Byte) : Prop :=
  kind.toNat ≤ 1 ∧ combine.toNat ≤ 1 ∧ policy.toNat ≤ 1 ∧ 4 ≤ sizeCode.toNat ∧ sizeCode.toNat ≤ 20 ∧
    cls.toNat ≤ 3 ∧ base.toNat ≤ 4194303 ∧ base.toNat % 2 ^ sizeCode.toNat = 0

/-- The record that R27 writes: the configuration given, not enabled, with clear flags and no updates counted. -/
def writtenRecord (kind : Byte) (base : BitVec 24) (sizeCode channel : Byte) (k : PrioClass) (combine policy : Byte) :
    Window :=
  { kind := if kind.toNat = 1 then .mirror else .owned, enabled := false
    base := BitVec.ofNat 22 base.toNat, sizeCode := sizeCode, channel := channel, cls := k
    combine := if combine.toNat = 1 then true else false
    policy := if policy.toNat = 1 then .refuse else .accept
    diverged := false, stale := false, updates := 0 }

theorem byte_eq_zero_or_one {b : Byte} (h : b.toNat ≤ 1) : b = 0 ∨ b = 1 := by
  rcases Nat.le_one_iff_eq_zero_or_eq_one.1 h with h | h
  · exact .inl (BitVec.eq_of_toNat_eq h)
  · exact .inr (BitVec.eq_of_toNat_eq h)

/-- Of a field with the values 0 and 1, whether it holds 0 decides as whether it holds 1. -/
theorem ite_zero_eq_ite_one {α : Type} {b : Byte} (h : b.toNat ≤ 1) (x y : α) :
    (if b = 0 then x else y) = if b.toNat = 1 then y else x := by
  rcases byte_eq_zero_or_one h with rfl | rfl <;> rfl

theorem decide_one_eq_ite {b : Byte} (h : b.toNat ≤ 1) : decide (b = 1) = if b.toNat = 1 then true else false := by
  rcases byte_eq_zero_or_one h with rfl | rfl <;> rfl

section Configuration
variable {kind sizeCode channel cls combine policy : Byte} {base : BitVec 24}

/-- A base in range is aligned in the 22 bits of the record exactly where it is in the 24 bits sent. -/
theorem aligned_iff_of_base {w : Window} (hw : w.base = base.setWidth 22) (hr : base.toNat < 2 ^ 22) :
    w.aligned = true ↔ base.toNat % 2 ^ w.sizeCode.toNat = 0 := by
  rw [Window.aligned, Window.size, beq_iff_eq, hw, BitVec.toNat_setWidth, Nat.mod_eq_of_lt hr]

theorem configuration_of_valid {k : PrioClass} (h : ValidConfiguration kind base sizeCode cls combine policy)
    (hk : cls.toNat = k.val) :
    configuration kind base sizeCode channel cls combine policy =
      some (writtenRecord kind base sizeCode channel k combine policy) := by
  obtain ⟨hkind, hcombine, hpolicy, hlow, hhigh, hcls, hbase, -⟩ := h
  have hrange : base.toNat < 2 ^ 22 := Nat.lt_succ_of_le hbase
  have hclass : Fin.ofNat 4 cls.toNat = k := Fin.ext (by simp [hk])
  rw [configuration, if_pos ⟨hkind, hcombine, hpolicy, hlow, hhigh, hcls, hrange⟩, hclass,
    ite_zero_eq_ite_one hkind, decide_one_eq_ite hcombine, ite_zero_eq_ite_one hpolicy]
  rfl

theorem writtenRecord_aligned {k : PrioClass} (h : ValidConfiguration kind base sizeCode cls combine policy) :
    (writtenRecord kind base sizeCode channel k combine policy).aligned = true := by
  obtain ⟨-, -, -, -, -, -, hbase, hmultiple⟩ := h
  exact (aligned_iff_of_base rfl (Nat.lt_succ_of_le hbase)).2 hmultiple

/-- A configuration that comes out of the range checks and is aligned passes all of R26. -/
theorem valid_of_configuration {w : Window} (h : configuration kind base sizeCode channel cls combine policy = some w)
    (ha : w.aligned = true) : ValidConfiguration kind base sizeCode cls combine policy := by
  unfold configuration at h
  split at h
  next hr =>
    cases h
    obtain ⟨hkind, hcombine, hpolicy, hlow, hhigh, hcls, hbase⟩ := hr
    exact ⟨hkind, hcombine, hpolicy, hlow, hhigh, hcls, Nat.le_of_lt_succ hbase, (aligned_iff_of_base rfl hbase).1 ha⟩
  next => cases h

end Configuration

section Rows
variable {n kind sizeCode channel cls combine policy : Byte} {base : BitVec 24} {s : State} {i : WinIdx}

theorem writeWindowEffect_of_ge (hn : 16 ≤ n.toNat) :
    writeWindowEffect n kind base sizeCode channel cls combine policy s = (s, [statusBadArg]) :=
  withIndex_of_ge n s _ hn

theorem writeWindowEffect_of_enabled (hi : n.toNat = i.val) (he : s.windows[i].enabled = true) :
    writeWindowEffect n kind base sizeCode channel cls combine policy s = (s, [statusBusy]) := by
  rw [writeWindowEffect, withIndex_of_lt n _ _ i hi, if_pos he]

theorem writeWindowEffect_of_not_valid (hi : n.toNat = i.val) (he : s.windows[i].enabled = false)
    (hv : ¬ValidConfiguration kind base sizeCode cls combine policy) :
    writeWindowEffect n kind base sizeCode channel cls combine policy s = (s, [statusBadArg]) := by
  rw [writeWindowEffect, withIndex_of_lt n _ _ i hi, if_neg (ne_true_of_eq_false he)]
  cases hw : configuration kind base sizeCode channel cls combine policy with
  | none => rfl
  | some w => exact if_neg fun ha => hv (valid_of_configuration hw ha)

theorem writeWindowEffect_of_valid {k : PrioClass} (hi : n.toNat = i.val) (he : s.windows[i].enabled = false)
    (hv : ValidConfiguration kind base sizeCode cls combine policy) (hk : cls.toNat = k.val) :
    writeWindowEffect n kind base sizeCode channel cls combine policy s =
      (s.setWindow i (writtenRecord kind base sizeCode channel k combine policy), [statusOk]) := by
  rw [writeWindowEffect, withIndex_of_lt n _ _ i hi, if_neg (ne_true_of_eq_false he), configuration_of_valid hv hk]
  exact if_pos (writtenRecord_aligned hv)

/-- The row of WRITE_WINDOW answers what its effect does. -/
theorem writeWindow_answered {u : State} {response : List Byte}
    (hc : Completing s (spelled (.writeWindow n kind base sizeCode channel cls combine policy)))
    (he : writeWindowEffect n kind base sizeCode channel cls combine policy (setMclk true s) =
      (setMclk true u, response)) :
    exec (.writeWindow n kind base sizeCode channel cls combine policy) s =
      .next (u.answered .writeWindow (spelled (.writeWindow n kind base sizeCode channel cls combine policy)).tail
        response) :=
  (exec_writeWindow n kind sizeCode channel cls combine policy base s).trans
    (commandRow_answered hc ((effect_writeWindow n kind sizeCode channel cls combine policy base _).trans he))

end Rows

/-! ## The statements -/

/-- Settles O48, from the rows' answers for an index out of range and for a window's record. The capacities are not
needed: the queued count is reported as one byte whatever it is. -/
theorem windowsAreReadAndCleared : Obligations.WindowsAreReadAndCleared := by
  intro n s _
  refine ⟨fun hc => ⟨readWindow_badIndex hc, fun i hi => ?_⟩,
    fun hc => ⟨clearWindow_badIndex hc, fun i hi => clearWindow_flags hc hi⟩⟩
  intro w base queued
  have hq : queuedCount s i = queued := by
    cases hk : s.windows[i].kind with
    | owned => simp only [queued, w, hk, queuedCount_of_owned hk]
    | mirror => simp only [queued, w, hk, queuedCount_of_mirror hk]
  rw [readWindow_record hc hi, windowBytes_eq, hq]
  rfl

/-- Settles O49, by the outcomes of the effect in the order of its checks. -/
theorem writeWindowChecksThenReplaces : Obligations.WriteWindowChecksThenReplaces := by
  intro n kind sizeCode channel cls combine policy base s command hc answer valid
  exact ⟨fun hn => writeWindow_answered hc (writeWindowEffect_of_ge hn), fun i hi =>
    ⟨fun he => writeWindow_answered hc (writeWindowEffect_of_enabled hi he),
      fun he hv => writeWindow_answered hc (writeWindowEffect_of_not_valid hi he hv),
      fun k he hv hk => writeWindow_answered hc (writeWindowEffect_of_valid hi he hv hk)⟩⟩

end Sys2Proof.Machine
end

section
/-! SUPPORT. Reception and sequence tracking (chapter 6). READ_SOURCE: what its effect answers, then the statement about
its row. -/

namespace Sys2Proof.Machine

/-! ## READ_SOURCE (R122, R190) -/

theorem bitAt_zero (b : Bool) : bitAt b 0 = if b = true then 0x01 else 0x00 := by
  cases b with
  | true => rfl
  | false => rfl

theorem exec_readSource (n : Byte) (s : State) : exec (.readSource n) s = commandRow .readSource [n] s := rfl

section Rows
variable {n : Byte} {s : State} {i : NodeId}

theorem readSourceEffect_of_ge (hn : 16 ≤ n.toNat) : readSourceEffect n s = (s, [statusBadArg]) :=
  withIndex_of_ge n s _ hn

theorem readSourceEffect_of_lt (hi : n.toNat = i.val) :
    readSourceEffect n s = (s, statusOk :: ([bitAt s.sources[i].known 0, s.sources[i].expected] ++
      bytes32 s.sources[i].taken ++ bytes16 s.sources[i].duplicates ++ bytes16 s.sources[i].gaps)) :=
  withIndex_of_lt n s _ i hi

theorem readSource_badIndex (hc : Completing s [0x28, n]) (hn : 16 ≤ n.toNat) :
    exec (.readSource n) s = .next (s.answered .readSource [n] [0x03]) :=
  (exec_readSource n s).trans (commandRow_answered hc (readSourceEffect_of_ge hn))

/-- The entry reported is that of the state before the row: MCLK going high leaves the Sequence Table. -/
theorem readSource_entry (hc : Completing s [0x28, n]) (hi : n.toNat = i.val) :
    exec (.readSource n) s = .next (s.answered .readSource [n]
      (0x00 :: ([bitAt s.sources[i].known 0, s.sources[i].expected] ++
        bytes32 s.sources[i].taken ++ bytes16 s.sources[i].duplicates ++ bytes16 s.sources[i].gaps))) :=
  (exec_readSource n s).trans (commandRow_answered hc (readSourceEffect_of_lt hi))

end Rows

/-! ## The statement -/

/-- Settles O53, from the row's answers for an index out of range and for a node's entry. -/
theorem readSourceReportsTheEntry : Obligations.ReadSourceReportsTheEntry := by
  intro n s hc
  refine ⟨readSource_badIndex hc, fun i hi => ?_⟩
  intro x
  rw [readSource_entry hc hi, bitAt_zero]
  rfl

end Sys2Proof.Machine
end

section
/-! SUPPORT. The Apply Queue and the Memory Arbiter (chapter 7). The comparison of acceptance numbers and what an entry
covers, then the statement about both. -/

namespace Sys2Proof.Machine

/-! ## At or before a mark (R126) -/

/-- The 16-bit difference is the difference modulo 65,536. -/
theorem atOrBefore_iff_mod (a m : AccNo) :
    atOrBefore a m = true ↔ (m.toNat + 65536 - a.toNat) % 65536 < 32768 := by
  rw [atOrBefore_iff, BitVec.toNat_sub]
  omega

/-! ## Present positions (R37, R124) -/

theorem maskLanes_getElem (m : SpanMask) (k : Position) {b : Nat} (hb : b < 4) :
    (maskLanes m k)[b] = m.getLsbD (4 * k.val + b) := by
  simp [maskLanes]

theorem lanes_ne_zero_iff (l : Lanes) :
    l ≠ 0 ↔ l[0] = true ∨ l[1] = true ∨ l[2] = true ∨ l[3] = true := by
  revert l
  decide

/-- A position is present when one of its four mask bits is set. -/
theorem present_iff (m : SpanMask) (k : Position) :
    present m k = true ↔ m.getLsbD (4 * k.val) = true ∨ m.getLsbD (4 * k.val + 1) = true ∨
      m.getLsbD (4 * k.val + 2) = true ∨ m.getLsbD (4 * k.val + 3) = true := by
  rw [present, bne_iff_ne, lanes_ne_zero_iff]
  simp only [maskLanes_getElem, Nat.add_zero]

/-! ## Coverage (R126) -/

/-- The distance from the span base to a covered word is a present position; it does not wrap at the end of memory. -/
theorem AqEntry.covers_iff (a : AqEntry) (w : WordAddr) :
    a.covers w = true ↔ ∃ k : Position, w.toNat = a.base.toNat + k.val ∧ present a.mask k = true := by
  simp only [AqEntry.covers, Bool.and_eq_true, decide_eq_true_eq]
  constructor
  · rintro ⟨⟨hle, hlt⟩, hp⟩
    refine ⟨Fin.ofNat 4 (w.toNat - a.base.toNat), ?_, hp⟩
    rw [Fin.val_ofNat, Nat.mod_eq_of_lt hlt]
    omega
  · rintro ⟨k, hw, hp⟩
    have hk : w.toNat - a.base.toNat = k.val := by omega
    rw [hk, Fin.ofNat_val_eq_self]
    exact ⟨⟨by omega, k.isLt⟩, hp⟩

/-! ## The statement -/

/-- Settles O16, from the comparison of marks and from coverage in terms of the present positions. -/
theorem acceptanceOrderAndCoverage : Obligations.AcceptanceOrderAndCoverage := by
  refine ⟨atOrBefore_iff_mod, fun a w => ?_⟩
  simp only [AqEntry.covers_iff, present_iff]

end Sys2Proof.Machine
end

section
/-! SUPPORT. The Management Port (chapter 10). The parameter block: READ_PARAMS and SET_PARAMS, and what every operation
of the block leaves of Node Control, so that no other command but the hard reset changes the parameters. -/

namespace Sys2Proof.Machine

/-! ## Operations that leave Node Control as it is

A lemma `op_node` says that the operation changes none of the fields of R142. -/

section NodeStands
variable (s : State) (e : Event)

/-! ### Window flags and queues -/

@[simp] theorem Event.setWindow_node (i : WinIdx) (w : Window) : (e.setWindow i w).node = e.node := rfl
@[simp] theorem Event.advanceUpdates_node (i : WinIdx) : (e.advanceUpdates i).node = e.node := rfl
@[simp] theorem Event.createEntry_node (r : CaptureRequest) : (e.createEntry r).node = e.node := rfl
@[simp] theorem Event.combineTail_node (r : CaptureRequest) (t : PqEntry) : (e.combineTail r t).node = e.node := rfl

@[simp] theorem Event.requestDiverged_node (i : WinIdx) : (e.requestDiverged i).node = e.node := by
  obtain ⟨ws, h⟩ := e.requestDiverged_toState i
  rw [h, State.withWindows_node]

@[simp] theorem Event.requestStale_node (i : WinIdx) : (e.requestStale i).node = e.node := by
  obtain ⟨ws, h⟩ := e.requestStale_toState i
  rw [h, State.withWindows_node]

@[simp] theorem Event.requestDivergedAll_node (is : List WinIdx) : (e.requestDivergedAll is).node = e.node := by
  obtain ⟨ws, h⟩ := e.requestDivergedAll_toState is
  rw [h, State.withWindows_node]

@[simp] theorem Event.requestStaleAll_node (is : List WinIdx) : (e.requestStaleAll is).node = e.node := by
  obtain ⟨ws, h⟩ := e.requestStaleAll_toState is
  rw [h, State.withWindows_node]

@[simp] theorem Event.discardPq_node : e.discardPq.node = e.node := by simp [Event.discardPq]

@[simp] theorem Event.discardFlight_node : e.discardFlight.node = e.node := by simp [Event.discardFlight, clearFlight]

theorem Event.capture_node {e' : Event} {r : CaptureRequest} (h : e.capture r = some e') : e'.node = e.node := by
  rcases e.capture_cases r with ⟨t, -, -, hc⟩ | ⟨-, -, hc⟩ | ⟨-, -, hc⟩
  · cases hc.symm.trans h; rfl
  · cases hc.symm.trans h; rfl
  · cases hc.symm.trans h

@[simp] theorem Event.roomCheck_node : e.roomCheck.node = e.node := by
  rcases e.roomCheck_cases with h | ⟨r, -, -, -, h⟩
  · rw [h]
  · rw [h]; rfl

/-! ### The Host Path and the Memory Arbiter -/

@[simp] theorem demotePlain_node : (demotePlain s).node = s.node := by
  unfold demotePlain
  split
  · rfl
  · rfl

@[simp] theorem Event.demoteUnpublished_node : e.demoteUnpublished.node = e.node := by
  unfold Event.demoteUnpublished
  split
  · cases heldWindow e.toState with
    | none => rfl
    | some i => exact Event.requestDiverged_node _ i
  · rfl

@[simp] theorem Event.expirePublishHold_node : e.expirePublishHold.node = e.node := by
  unfold Event.expirePublishHold
  split
  · simp
  · rfl

@[simp] theorem acceptPlain_node (c : HostCycle) : (acceptPlain c s).node = s.node := by
  unfold acceptPlain
  dsimp only
  split
  · split
    · rfl
    · rfl
  · rfl

@[simp] theorem Event.acceptPublish_node (c : HostCycle) (i : WinIdx) : (e.acceptPublish c i).node = e.node := by
  unfold Event.acceptPublish
  dsimp only
  split
  next e' h => exact (e.capture_node h : e'.node = e.node)
  next =>
    split
    · simp
    · rfl

@[simp] theorem Event.accept_node (c : HostCycle) : (e.accept c).node = e.node := by
  unfold Event.accept
  dsimp only
  split
  · exact Event.acceptPublish_node _ c _
  · exact Event.requestDiverged_node _ _
  · exact Event.requestStale_node _ _
  · rfl
  · exact acceptPlain_node _ c

@[simp] theorem Event.acceptPresented_node : e.acceptPresented.node = e.node := by
  rcases e.acceptPresented_cases with ⟨c, -, -, h⟩ | ⟨-, h⟩
  · rw [h, Event.accept_node]
  · rw [h]

@[simp] theorem releaseReadHold_node : (releaseReadHold s).node = s.node := by
  rcases releaseReadHold_cases s with ⟨-, -, h⟩ | ⟨-, h⟩
  · rw [h, State.withHost_node]
  · rw [h]

@[simp] theorem voidWaiting_node (which : AqEntry → Bool) : (voidWaiting which s).node = s.node := by
  simp [voidWaiting]

@[simp] theorem Event.applyWordDone_node : e.applyWordDone.node = e.node := by
  unfold Event.applyWordDone
  split
  · split
    · split
      · rfl
      · simp
    · rfl
  · rfl

@[simp] theorem Event.memoryDone_node (c : MemCycle) (sd : Word) : (e.memoryDone c sd).node = e.node := by
  unfold Event.memoryDone
  dsimp only
  cases c.grant with
  | host => cases c.dir <;> simp [completeHostCycle]
  | apply => cases c.dir <;> simp

/-! ### The choices and the end of an event -/

@[simp] theorem Event.sendOffer_node (o : Offer) : (e.sendOffer o).node = e.node := by
  cases o with
  | announce r => rfl
  | resend f =>
    simp only [Event.sendOffer, Event.commitOffer]
    cases flightPosition e.orig.flight f.seq with
    | none => rfl
    | some i => rfl
  | fresh p => exact Event.roomCheck_node _

@[simp] theorem Event.chooseOutput_node : e.chooseOutput.node = e.node := by
  unfold Event.chooseOutput
  split
  · rfl
  · split
    · exact e.sendOffer_node _
    · rfl
    · split
      · exact e.sendOffer_node _
      · rfl
    · rfl

@[simp] theorem arbitrate_node : (arbitrate s).node = s.node := by
  obtain ⟨a, h, q, heq⟩ := arbitrate_eq s
  rw [heq]; rfl

@[simp] theorem choices_node : (choices s).node = s.node := by simp [choices]

/-- The commitment of the causes and the arbiters' choices leave Node Control. -/
@[simp] theorem Event.finish_node : e.finish.node = e.node := by
  unfold Event.finish
  dsimp only
  split
  · simp
  · simp
  · simp

/-! ### Reception up to the forwarding -/

@[simp] theorem Event.take_node (n : NodeId) : (e.take n).node = e.node := rfl

@[simp] theorem Event.inOrder_node (f : Frame) (ch : Byte) (span : SpanOffset) (mask : SpanMask) (words : List Word) :
    (e.inOrder f ch span mask words).1.node = e.node := by
  rcases e.inOrder_cases f ch span mask words with
    ⟨-, h⟩ | ⟨i, -, ⟨-, h⟩ | ⟨-, -, h⟩ | ⟨-, -, ⟨-, h⟩ | ⟨-, -, h⟩ | ⟨-, -, h⟩⟩⟩
  all_goals rw [h]
  all_goals simp [createApplyEntry]

@[simp] theorem Event.updateArrived_node (f : Frame) (ch : Byte) (span : SpanOffset) (mask : SpanMask)
    (words : List Word) : (e.updateArrived f ch span mask words).1.node = e.node := by
  unfold Event.updateArrived
  dsimp only
  split
  · simp [updateSource]
  · split
    · simp
    · split
      · split
        · rfl
        · simp [updateSource]
      · rfl

end NodeStands

/-! ## Operations that change the mode, the level or a fault counter at most -/

/-- Node Control but for its mode and its fault confinement (R142): the node ID, the parameters and the timebase. -/
def NodeControl.settings (n : NodeControl) : NodeId × Params × Time := (n.nodeId, n.params, n.timebase)

section SettingsStand
variable (s : State) (e : Event)

@[simp] theorem setMode_settings (m : Mode) : (setMode m s).node.settings = s.node.settings := rfl
@[simp] theorem setLevel_settings (l : Level) : (setLevel l s).node.settings = s.node.settings := rfl

@[simp] theorem Report.apply_settings (r : Report) (n : NodeControl) : (r.apply n).settings = n.settings := by
  cases r <;> rfl

/-! ### Reports and levels -/

@[simp] theorem Event.isolate_settings : e.isolate.node.settings = e.node.settings := by
  simp [Event.isolate, abandonAnnounce]

@[simp] theorem Event.evaluateLevel_settings : e.evaluateLevel.node.settings = e.node.settings := by
  rcases e.evaluateLevel_cases with ⟨-, -, h⟩ | ⟨-, h⟩ | ⟨-, -, -, h⟩ | h
  · rw [h, Event.isolate_settings]
  · rw [h]; rfl
  · rw [h]; rfl
  · rw [h]

@[simp] theorem Event.reportUnder_settings (m : Mode) (r : Report) :
    (e.reportUnder m r).node.settings = e.node.settings := by
  unfold Event.reportUnder
  split
  · rfl
  · simp

@[simp] theorem Event.report_settings (r : Report) : (e.report r).node.settings = e.node.settings :=
  e.reportUnder_settings _ r

@[simp] theorem Event.drainCheck_settings : e.drainCheck.node.settings = e.node.settings := by
  rcases e.drainCheck_cases with ⟨-, -, -, h⟩ | ⟨-, h⟩
  · rw [h]; rfl
  · rw [h]

/-! ### Returns -/

@[simp] theorem Event.giveUp_settings (q : Byte) : (e.giveUp q).node.settings = e.node.settings := by
  unfold Event.giveUp
  dsimp only
  split
  · simp [createAnnounce]
  · simp
  · simp
  · simp

@[simp] theorem Event.goBack_settings (objection : Bool) : (e.goBack objection).node.settings = e.node.settings := by
  rcases e.goBack_cases objection with ⟨-, h⟩ | ⟨x, rest, -, -, h⟩ | ⟨x, rest, -, -, h⟩
  · rw [h]
  · rw [h, Event.giveUp_settings]
  · rw [h]; rfl

@[simp] theorem Event.goBackReported_settings (objection : Bool) (r : Report) :
    (e.goBackReported objection r).node.settings = e.node.settings := by simp [Event.goBackReported]

@[simp] theorem Event.retire_settings : e.retire.node.settings = e.node.settings := by simp [Event.retire]

@[simp] theorem Event.updateReturned_settings (f : Frame) : (e.updateReturned f).node.settings = e.node.settings := by
  unfold Event.updateReturned
  split
  · rfl
  · split
    · rfl
    · split
      · exact e.goBackReported_settings _ _
      · split
        · exact e.retire_settings
        · exact e.goBackReported_settings _ _

@[simp] theorem Event.announceReturned_settings (f : Frame) :
    (e.announceReturned f).node.settings = e.node.settings := by
  unfold Event.announceReturned
  split
  · split
    · rfl
    · rfl
  · rfl

@[simp] theorem Event.returned_settings (f : Frame) : (e.returned f).node.settings = e.node.settings := by
  unfold Event.returned
  split
  · exact e.updateReturned_settings f
  · exact e.announceReturned_settings f

/-! ### Arrivals -/

@[simp] theorem Event.forward_settings (f : Frame) (nak : Bool) :
    (e.forward f nak).node.settings = e.node.settings := by
  rcases e.forward_cases f nak with ⟨-, h⟩ | ⟨-, h⟩
  · rw [h, Event.report_settings]; rfl
  · rw [h]; rfl

@[simp] theorem Event.goodArrival_settings (f : Frame) : (e.goodArrival f).node.settings = e.node.settings := by
  unfold Event.goodArrival
  split
  · exact e.returned_settings f
  · split
    · rfl
    · split
      · exact e.forward_settings f f.nak
      · split
        · exact Event.forward_settings _ f f.nak
        · simp

@[simp] theorem Event.receive_settings (bytes : List Byte) : (e.receive bytes).node.settings = e.node.settings := by
  unfold Event.receive
  split
  · exact e.report_settings _
  · simp

/-! ### The inbound link -/

@[simp] theorem Event.cutOff_settings : e.cutOff.node.settings = e.node.settings := by
  unfold Event.cutOff
  split
  · simp
  · rfl

@[simp] theorem Event.enterUp_node : e.enterUp.node = e.node := rfl
@[simp] theorem Event.loseAlignment_node : e.loseAlignment.node = e.node := rfl

@[simp] theorem Event.frameEnd_settings (bytes : List Byte) : (e.frameEnd bytes).node.settings = e.node.settings :=
  Event.receive_settings _ bytes

@[simp] theorem Event.validInUp_settings (sym : Symbol) : (e.validInUp sym).node.settings = e.node.settings := by
  unfold Event.validInUp
  dsimp only
  split
  · simp [openFrame]
  · rfl
  · split
    · simp
    · rfl
  · simp
  · simp
  · rfl

@[simp] theorem Event.invalidInUp_settings : e.invalidInUp.node.settings = e.node.settings := by
  unfold Event.invalidInUp
  dsimp only
  split
  · simp
  · simp

@[simp] theorem Event.symbol_settings (sym : Symbol) : (e.symbol sym).node.settings = e.node.settings := by
  unfold Event.symbol
  split
  · rfl
  · split
    · rfl
    · split
      · rfl
      · rfl
  · split
    · exact e.invalidInUp_settings
    · exact e.validInUp_settings sym

@[simp] theorem Event.loseSignal_settings : e.loseSignal.node.settings = e.node.settings := by
  unfold Event.loseSignal
  dsimp only
  split
  · simp
  · simp

@[simp] theorem runBegins_settings : (runBegins s).node.settings = s.node.settings := by
  unfold runBegins
  split
  · simp
  · rfl

/-! ### The commands of the node -/

@[simp] theorem Event.flushClass_settings (c : PrioClass) : (e.flushClass c).node.settings = e.node.settings := by
  simp [Event.flushClass]

@[simp] theorem softResetLinks_node : (softResetLinks s).node = s.node := rfl
@[simp] theorem softResetNode_settings : (softResetNode s).node.settings = s.node.settings := rfl

@[simp] theorem Event.softReset_settings : e.softReset.node.settings = e.node.settings := by
  simp [Event.softReset, Event.clearAttention, resetSources, zeroUpdates, softResetOrigination]

end SettingsStand

/-! ## The commands of the host, the links and the timers -/

section Events
variable {s t : State}

/-- A command with a condition keeps the settings when what it does keeps them: elsewhere it changes nothing. -/
theorem settings_of_ite {p : Prop} [Decidable p] {x : State} (hx : x.node.settings = s.node.settings)
    (h : (if p then .next x else .next s : Host.Outcome State Fault Refusal) = .next t) :
    t.node.settings = s.node.settings := by
  split at h
  · cases h; exact hx
  · cases h; rfl

theorem execHostCycleAcceptance_settings {addr : ByteAddr} {dir : Direction} {lanes : Lanes} {data : Word}
    (h : execHostCycleAcceptance addr dir lanes data s = .next t) : t.node.settings = s.node.settings := by
  cases h
  simp [presentCycle]

theorem execRefusedWriteCompletion_settings (h : execRefusedWriteCompletion s = .next t) :
    t.node.settings = s.node.settings := settings_of_ite (by simp [signalRefused]) h

theorem execMemoryCycleCompletion_settings {sd : Word} (h : execMemoryCycleCompletion sd s = .next t) :
    t.node.settings = s.node.settings := by
  unfold execMemoryCycleCompletion at h
  split at h
  · cases h; simp
  · cases h; rfl

theorem execPublishHoldExpiry_settings (h : execPublishHoldExpiry s = .next t) :
    t.node.settings = s.node.settings := settings_of_ite (by simp) h

theorem execTransmissionCompletion_settings (h : execTransmissionCompletion s = .next t) :
    t.node.settings = s.node.settings := settings_of_ite (by simp) h

theorem execReturnTimerExpiry_settings (h : execReturnTimerExpiry s = .next t) :
    t.node.settings = s.node.settings := settings_of_ite (by simp) h

theorem execAnnounceTimerExpiry_settings (h : execAnnounceTimerExpiry s = .next t) :
    t.node.settings = s.node.settings := settings_of_ite (by simp [retryAnnounce]) h

theorem execBackoffExpiry_settings (h : execBackoffExpiry s = .next t) :
    t.node.settings = s.node.settings := settings_of_ite (by simp) h

theorem execSymbolReceived_settings {group : BitVec 10} (h : execSymbolReceived group s = .next t) :
    t.node.settings = s.node.settings := by
  refine settings_of_ite ?_ h
  split
  · simp [stampTransition]
  · simp

theorem execSignalDetected_settings (h : execSignalDetected s = .next t) :
    t.node.settings = s.node.settings := by
  refine settings_of_ite ?_ h
  split
  · rfl
  · rfl

theorem execLossOfSignal_settings (h : execLossOfSignal s = .next t) :
    t.node.settings = s.node.settings := settings_of_ite (by simp) h

theorem execLinkUp_settings (h : execLinkUp s = .next t) :
    t.node.settings = s.node.settings := settings_of_ite (by simp [stampTransition]) h

theorem execAlignmentLost_settings (h : execAlignmentLost s = .next t) :
    t.node.settings = s.node.settings := settings_of_ite (by simp) h

theorem execFrameCutOff_settings {sym : Symbol} (h : execFrameCutOff sym s = .next t) :
    t.node.settings = s.node.settings := by
  unfold execFrameCutOff at h
  split at h
  · cases sym with
    | endFrame => cases h; rfl
    | _ => cases h; simp [stampTransition]
  · cases h; rfl

theorem execFrameArrival_settings {bytes : List Byte} (h : execFrameArrival bytes s = .next t) :
    t.node.settings = s.node.settings := settings_of_ite (by simp [stampTransition]) h

theorem execTransactionBegin_settings (h : execTransactionBegin s = .next t) :
    t.node.settings = s.node.settings := by
  unfold execTransactionBegin at h
  split at h
  · dsimp only at h
    split at h
    · cases h; rfl
    · cases h; rfl
  · cases h; rfl

@[simp] theorem endTransaction_node (s : State) : (endTransaction s).node = s.node := by
  unfold endTransaction
  dsimp only
  split
  · rfl
  · rfl

theorem execTransactionEnd_settings (h : execTransactionEnd s = .next t) :
    t.node.settings = s.node.settings := by
  unfold execTransactionEnd at h
  split at h
  · cases h; rfl
  · dsimp only at h
    split at h
    · cases h; simp
    · cases h; rfl

/-! ## The resets and the timebase: the parameters alone -/

/-- At the fall of RESET_N the parameters are the defaults (R156). -/
theorem execHardReset_params (hr : s.resetN = true) (h : execHardReset s = .next t) :
    t.node.params = Params.default := by
  rw [execHardReset, if_pos hr] at h
  cases h
  rw [Event.finish_node]
  rfl

theorem execResetRelease_params {straps : NodeId} (h : execResetRelease straps s = .next t) :
    t.node.params = s.node.params := by
  unfold execResetRelease at h
  split at h
  · cases h; rfl
  · cases h; simp [leaveHardReset]

theorem execTimebaseAdvance_params (h : execTimebaseAdvance s = .next t) : t.node.params = s.node.params := by
  unfold execTimebaseAdvance at h
  split at h
  · cases h; rfl
  · cases h; rfl

end Events

/-! ## SET_PARAMS (R184) -/

/-- Two bytes received most significant first are the value they were sent from (R189). -/
theorem append_bytes16 (v : BitVec 16) : v.extractLsb' 8 8 ++ v.extractLsb' 0 8 = v := by
  rw [BitVec.extractLsb'_append_extractLsb'_eq_extractLsb' (by rfl), BitVec.extractLsb'_eq_self]

section SetParams
variable {rto phl nakBackoff : BitVec 16} {retryLimit : Byte} {s : State}

theorem setParamsEffect_of_not_offline (hm : s.node.mode ≠ .offline) :
    setParamsEffect rto phl retryLimit nakBackoff s = (s, [statusBadState]) := if_pos hm

theorem setParamsEffect_of_out_of_range (hm : s.node.mode = .offline)
    (hr : rto.toNat < 16 ∨ retryLimit.toNat < 1 ∨ 1023 < nakBackoff.toNat) :
    setParamsEffect rto phl retryLimit nakBackoff s = (s, [statusBadArg]) := by
  rw [setParamsEffect, if_neg (not_not_intro hm)]
  split
  · rfl
  · split
    · rfl
    next hrto hretry =>
      have hpos : retryLimit.toNat ≠ 0 := fun h0 => hretry (BitVec.eq_of_toNat_eq h0)
      exact if_pos (by omega)

theorem setParamsEffect_of_valid (hm : s.node.mode = .offline) (hrto : 16 ≤ rto.toNat) (hretry : 1 ≤ retryLimit.toNat)
    (hnak : nakBackoff.toNat ≤ 1023) :
    setParamsEffect rto phl retryLimit nakBackoff s =
      (s.withNode { s.node with
        params := { rto := rto, phl := phl, retryLimit := retryLimit, nakBackoff := nakBackoff } }, [statusOk]) := by
  have hpos : retryLimit ≠ 0 := by
    rintro rfl
    exact absurd hretry (by decide)
  rw [setParamsEffect, if_neg (not_not_intro hm), if_neg (Nat.not_lt.2 hrto), if_neg hpos, if_neg (Nat.not_lt.2 hnak)]

/-- SET_PARAMS leaves the block, or it is accepted in OFFLINE and writes all four parameters. -/
theorem setParamsEffect_cases (rto phl nakBackoff : BitVec 16) (retryLimit : Byte) (s : State) :
    (setParamsEffect rto phl retryLimit nakBackoff s).1 = s ∨
    (s.node.mode = .offline ∧ setParamsEffect rto phl retryLimit nakBackoff s =
      (s.withNode { s.node with
        params := { rto := rto, phl := phl, retryLimit := retryLimit, nakBackoff := nakBackoff } }, [statusOk])) := by
  by_cases hm : s.node.mode = .offline
  · by_cases hr : rto.toNat < 16 ∨ retryLimit.toNat < 1 ∨ 1023 < nakBackoff.toNat
    · exact .inl (congrArg Prod.fst (setParamsEffect_of_out_of_range hm hr))
    · simp only [not_or, Nat.not_lt] at hr
      obtain ⟨hrto, hretry, hnak⟩ := hr
      exact .inr ⟨hm, setParamsEffect_of_valid hm hrto hretry hnak⟩
  · exact .inl (congrArg Prod.fst (setParamsEffect_of_not_offline hm))

/-- The four arguments are received as they were sent. -/
theorem effect_setParams (rto phl nakBackoff : BitVec 16) (retryLimit : Byte) (s : State) :
    Command.setParams.effect (spelled (.setParams rto phl retryLimit nakBackoff)).tail s =
      setParamsEffect rto phl retryLimit nakBackoff s := by
  change setParamsEffect (rto.extractLsb' 8 8 ++ rto.extractLsb' 0 8) (phl.extractLsb' 8 8 ++ phl.extractLsb' 0 8)
    retryLimit (nakBackoff.extractLsb' 8 8 ++ nakBackoff.extractLsb' 0 8) s = _
  simp only [append_bytes16]

/-- The row of SET_PARAMS answers what its effect does. -/
theorem setParams_answered {u : State} {response : List Byte}
    (hc : Completing s (spelled (.setParams rto phl retryLimit nakBackoff)))
    (he : setParamsEffect rto phl retryLimit nakBackoff (setMclk true s) = (setMclk true u, response)) :
    exec (.setParams rto phl retryLimit nakBackoff) s =
      .next (u.answered .setParams (spelled (.setParams rto phl retryLimit nakBackoff)).tail response) :=
  commandRow_answered hc ((effect_setParams rto phl nakBackoff retryLimit _).trans he)

end SetParams

/-! ## The effects of the other commands -/

section Effects
variable (s : State)

/-- A command with an index byte keeps the settings when what it does to each record keeps them. -/
theorem withIndex_settings {n : Byte} {f : Fin 16 → State × List Byte}
    (hf : ∀ i, (f i).1.node.settings = s.node.settings) : (withIndex n s f).1.node.settings = s.node.settings := by
  unfold withIndex
  split
  · exact hf _
  · rfl

theorem writeWindowEffect_settings (n kind : Byte) (base : BitVec 24) (sizeCode channel cls combine policy : Byte) :
    (writeWindowEffect n kind base sizeCode channel cls combine policy s).1.node.settings = s.node.settings := by
  refine withIndex_settings s fun i => ?_
  split
  · rfl
  · split
    · split
      · rfl
      · rfl
    · rfl

theorem enableWindowEffect_settings (n : Byte) : (enableWindowEffect n s).1.node.settings = s.node.settings := by
  refine withIndex_settings s fun i => ?_
  split
  · rfl
  · split
    · rfl
    · split
      · rfl
      · rfl

@[simp] theorem demoteHeldOn_node (i : WinIdx) : (demoteHeldOn i s).node = s.node := by
  unfold demoteHeldOn
  split
  · exact demotePlain_node s
  · rfl

@[simp] theorem voidOfWindow_node (i : WinIdx) : (voidOfWindow i s).node = s.node := by
  unfold voidOfWindow
  split
  · exact voidWaiting_node s _
  · rfl

theorem disableWindowEffect_settings (n : Byte) : (disableWindowEffect n s).1.node.settings = s.node.settings := by
  refine withIndex_settings s fun i => ?_
  split
  · simp [disableRecord]
  · rfl

theorem flushEffect_settings (c : Byte) : (flushEffect c s).1.node.settings = s.node.settings := by
  unfold flushEffect
  split
  · dsimp only
    split
    · rfl
    · simp
  · rfl

theorem startEffect_settings : (startEffect s).1.node.settings = s.node.settings := by
  unfold startEffect
  split
  · rfl
  · split
    · rfl
    · rw [Event.finish_node]; rfl

theorem stopEffect_settings : (stopEffect s).1.node.settings = s.node.settings := by
  unfold stopEffect
  split
  · simp
  · simp [abandonAnnounce]
  · rfl
  · rfl

theorem setEnablesEffect_settings (set : BitVec 16) : (setEnablesEffect set s).1.node.settings = s.node.settings := by
  unfold setEnablesEffect
  split
  · rfl
  · rfl

theorem ackEventsEffect_settings (set : BitVec 16) : (ackEventsEffect set s).1.node.settings = s.node.settings := by
  unfold ackEventsEffect
  split
  · rfl
  · rfl

/-- No management command but SET_PARAMS touches the node ID, the parameters or the timebase. -/
theorem Command.effect_settings {c : Command} (args : List Byte) (hc : c ≠ .setParams) :
    (c.effect args s).1.node.settings = s.node.settings := by
  cases c with
  | setParams => exact absurd rfl hc
  | softReset => simp [Command.effect, softResetEffect]
  | readWindow => exact withIndex_settings s fun _ => rfl
  | writeWindow => exact writeWindowEffect_settings s _ _ _ _ _ _ _ _
  | enableWindow => exact enableWindowEffect_settings s _
  | disableWindow => exact disableWindowEffect_settings s _
  | clearWindow => exact withIndex_settings s fun _ => rfl
  | flush => exact flushEffect_settings s _
  | readSource => exact withIndex_settings s fun _ => rfl
  | start => exact startEffect_settings s
  | stop => exact stopEffect_settings s
  | setEnables => exact setEnablesEffect_settings s _
  | ackEvents => exact ackEventsEffect_settings s _
  | ident | status | readParams | readEvents | takeIncident | unknown => rfl

end Effects

/-! ## Who changes the parameters -/

theorem NodeControl.params_of_settings {m n : NodeControl} (h : m.settings = n.settings) : m.params = n.params :=
  congrArg (fun x => x.2.1) h

/-- From s to t a SET_PARAMS has executed in OFFLINE, been accepted, and written its four arguments (R184). -/
def ParamsSet (s t : State) : Prop :=
  Executes s t .setParams ∧ s.node.mode = .offline ∧ t.mgmt.txn.response = some [0x00] ∧
    t.node.params = { rto := arg16 t.mgmt.txn.args 0, phl := arg16 t.mgmt.txn.args 2
                      retryLimit := argByte t.mgmt.txn.args 4, nakBackoff := arg16 t.mgmt.txn.args 5 }

section Executions
variable {s t : State}

/-- An execution keeps the parameters or is that of an accepted SET_PARAMS. -/
theorem executeCommand_params (c : Command) (args : List Byte) (hp : s.mgmt.txn.port = .receiving) :
    (executeCommand c args s).node.params = s.node.params ∨ ParamsSet s (executeCommand c args s) := by
  by_cases hc : c = .setParams
  · subst hc
    rcases setParamsEffect_cases (arg16 args 0) (arg16 args 2) (arg16 args 5) (argByte args 4) s with h | ⟨hm, h⟩
    · exact .inl (congrArg (fun u => u.node.params) h)
    · have he : Command.setParams.effect args s = _ := h
      refine .inr ⟨⟨hp, rfl, rfl⟩, hm, ?_, ?_⟩
      · rw [executeCommand_eq, he]; rfl
      · rw [executeCommand_eq, he]; rfl
  · exact .inl (NodeControl.params_of_settings (Command.effect_settings s args hc))

/-- A row executes in RECEIVING, or nothing happens. -/
theorem commandRow_params {c : Command} {args : List Byte} (h : commandRow c args s = .next t) :
    t.node.params = s.node.params ∨ ParamsSet s t := by
  rw [commandRow_eq] at h
  split at h
  next hc =>
    obtain ⟨-, hcan⟩ := hc
    simp only [Transaction.canComplete, Bool.and_eq_true, decide_eq_true_eq] at hcan
    obtain ⟨⟨hp, -⟩, -⟩ := hcan
    cases h
    exact executeCommand_params (s := setMclk true s) c args hp
  next => cases h; exact .inl rfl

theorem receiveByte_params (b : Byte) (hp : s.mgmt.txn.port = .receiving) :
    (receiveByte b s).node.params = s.node.params ∨ ParamsSet s (receiveByte b s) := by
  unfold receiveByte
  dsimp only
  split
  · split
    · exact executeCommand_params _ _ hp
    · exact .inl rfl
  · split
    · exact executeCommand_params _ _ hp
    · exact .inl rfl

theorem receiveBit_params (mdi : Bool) (hp : s.mgmt.txn.port = .receiving) :
    (receiveBit mdi s).node.params = s.node.params ∨ ParamsSet s (receiveBit mdi s) := by
  unfold receiveBit
  dsimp only
  split
  · exact receiveByte_params _ hp
  · exact .inl rfl

/-- A rising edge executes a command in RECEIVING alone (R174, R176). -/
theorem clockRises_params (mdi : Bool) (s : State) :
    (clockRises mdi s).node.params = s.node.params ∨ ParamsSet s (clockRises mdi s) := by
  unfold clockRises
  dsimp only
  split
  · exact .inl rfl
  next hp => exact receiveBit_params mdi hp
  · exact .inl rfl
  · exact .inl rfl

@[simp] theorem clockFalls_node (s : State) : (clockFalls s).node = s.node := by
  unfold clockFalls
  split
  · rfl
  · rfl
  · rfl
  · rfl

theorem execMclkEdge_params {edge : MclkEdge} (h : execMclkEdge edge s = .next t) :
    t.node.params = s.node.params ∨ ParamsSet s t := by
  cases edge with
  | rising mdi =>
    unfold execMclkEdge at h
    dsimp only at h
    split at h
    · cases h; exact .inl rfl
    · split at h
      · cases h; exact clockRises_params mdi (setMclk true s)
      · cases h; exact .inl rfl
  | falling =>
    unfold execMclkEdge at h
    dsimp only at h
    split at h
    · split at h
      · cases h; exact .inl (congrArg NodeControl.params (clockFalls_node _))
      · cases h; exact .inl rfl
    · cases h; exact .inl rfl

theorem execUnknownCommand_params {code : Byte} (h : execUnknownCommand code s = .next t) :
    t.node.params = s.node.params ∨ ParamsSet s t := by
  unfold execUnknownCommand at h
  split at h
  · exact commandRow_params h
  · cases h; exact .inl rfl

/-- Every command keeps the parameters, but for the fall of RESET_N and the execution of an accepted SET_PARAMS. -/
theorem exec_params {c : Instr} (h : exec c s = .next t) :
    t.node.params = s.node.params ∨ (c = .hardReset ∧ s.resetN = true) ∨ ParamsSet s t := by
  have kept (hk : t.node.settings = s.node.settings) :
      t.node.params = s.node.params ∨ (c = .hardReset ∧ s.resetN = true) ∨ ParamsSet s t :=
    .inl (NodeControl.params_of_settings hk)
  have port (hp : t.node.params = s.node.params ∨ ParamsSet s t) :
      t.node.params = s.node.params ∨ (c = .hardReset ∧ s.resetN = true) ∨ ParamsSet s t := hp.imp_right .inr
  cases c with
  | hostCycleAcceptance => exact kept (execHostCycleAcceptance_settings h)
  | refusedWriteCompletion => exact kept (execRefusedWriteCompletion_settings h)
  | memoryCycleCompletion => exact kept (execMemoryCycleCompletion_settings h)
  | publishHoldExpiry => exact kept (execPublishHoldExpiry_settings h)
  | hstbNRelease => cases h; exact .inl rfl
  | signalDetected => exact kept (execSignalDetected_settings h)
  | lossOfSignal => exact kept (execLossOfSignal_settings h)
  | linkUp => exact kept (execLinkUp_settings h)
  | alignmentLost => exact kept (execAlignmentLost_settings h)
  | frameCutOff => exact kept (execFrameCutOff_settings h)
  | frameArrival => exact kept (execFrameArrival_settings h)
  | symbolReceived => exact kept (execSymbolReceived_settings h)
  | transmissionCompletion => exact kept (execTransmissionCompletion_settings h)
  | returnTimerExpiry => exact kept (execReturnTimerExpiry_settings h)
  | announceTimerExpiry => exact kept (execAnnounceTimerExpiry_settings h)
  | backoffExpiry => exact kept (execBackoffExpiry_settings h)
  | hardReset =>
    by_cases hr : s.resetN = true
    · exact .inr (.inl ⟨rfl, hr⟩)
    · cases (if_neg hr).symm.trans h; exact .inl rfl
  | resetRelease => exact .inl (execResetRelease_params h)
  | timebaseAdvance => exact .inl (execTimebaseAdvance_params h)
  | transactionBegin => exact kept (execTransactionBegin_settings h)
  | transactionEnd => exact kept (execTransactionEnd_settings h)
  | mclkEdge => exact port (execMclkEdge_params h)
  | unknownCommand => exact port (execUnknownCommand_params h)
  | ident | status | readParams | setParams | softReset | readWindow | writeWindow | enableWindow | disableWindow
  | clearWindow | flush | readSource | start | stop | readEvents | setEnables | ackEvents | takeIncident =>
    exact port (commandRow_params h)

end Executions

/-! ## The statement -/

/-- Settles O47, from the rows' answers, the value at the fall of RESET_N, and what every command leaves of the
parameters. -/
theorem parametersAreReadAndWritten : Obligations.ParametersAreReadAndWritten := by
  refine ⟨fun s hc => commandRow_answered hc rfl, ?_, fun s t hr h => execHardReset_params hr h, fun c s t h hne => ?_⟩
  · intro rto phl nakBackoff retryLimit s command hc answer
    exact ⟨fun hm => setParams_answered hc (setParamsEffect_of_not_offline hm),
      fun hm hr => setParams_answered hc (setParamsEffect_of_out_of_range hm hr),
      fun hm hrto hretry hnak => setParams_answered hc (setParamsEffect_of_valid hm hrto hretry hnak)⟩
  · rcases exec_params h with hk | hr | hp
    · exact absurd hk hne
    · exact .inl hr
    · exact .inr hp

end Sys2Proof.Machine
end

section
/-! SUPPORT. What the operations of an event leave of the block: the blocks that no event touches, and the configuration
of every window. -/

namespace Sys2Proof.Machine

/-! ## The part of the state that stands -/

/-- A window's configuration and enabled field (R18): its record with clear flags and no updates counted. -/
def Window.plain (w : Window) : Window := { w with diverged := false, stale := false, updates := 0 }

/-- What no operation within a running block changes. -/
structure Fixed (s t : State) : Prop where
  resetN : t.resetN = s.resetN
  mgmt : t.mgmt = s.mgmt
  mem : t.mem = s.mem
  pending : t.pending = s.pending
  moments : t.moments = s.moments

/-- What neither the operations of an event nor the choices after it change. An ISOLATED node stays so (R152). -/
structure Stands (s t : State) : Prop extends Fixed s t where
  attn : t.attn = s.attn
  plain : ∀ i : WinIdx, t.windows[i].plain = s.windows[i].plain
  isolated : s.node.level = .isolated → t.node.level = .isolated
  settings : t.node.settings = s.node.settings

/-- What the operations of an event do not change: with the part that stands, the memory port and next_seq. -/
structure Keeps (s t : State) : Prop extends Stands s t where
  arb : t.arb = s.arb
  nextSeq : t.orig.nextSeq = s.orig.nextSeq

theorem Fixed.trans {s t u : State} (h : Fixed s t) (k : Fixed t u) : Fixed s u :=
  ⟨k.resetN.trans h.resetN, k.mgmt.trans h.mgmt, k.mem.trans h.mem, k.pending.trans h.pending,
    k.moments.trans h.moments⟩

theorem Stands.refl (s : State) : Stands s s := ⟨⟨rfl, rfl, rfl, rfl, rfl⟩, rfl, fun _ => rfl, id, rfl⟩

theorem Stands.trans {s t u : State} (h : Stands s t) (k : Stands t u) : Stands s u :=
  ⟨h.toFixed.trans k.toFixed, k.attn.trans h.attn, fun i => (k.plain i).trans (h.plain i), k.isolated ∘ h.isolated,
    k.settings.trans h.settings⟩

theorem Keeps.refl (s : State) : Keeps s s := ⟨.refl s, rfl, rfl⟩

theorem Keeps.trans {s t u : State} (h : Keeps s t) (k : Keeps t u) : Keeps s u :=
  ⟨h.toStands.trans k.toStands, k.arb.trans h.arb, k.nextSeq.trans h.nextSeq⟩

/-! ## Updates of one block -/

section Blocks
variable {s t : State}

/-- An update of the blocks that events and choices work on. -/
theorem Stands.of_rest {s t : State} (h : t = { s with
    host := t.host, pq := t.pq, orig := t.orig, link := t.link, out := t.out, sources := t.sources, aq := t.aq
    arb := t.arb }) : Stands s t := by
  rw [h]
  exact ⟨⟨rfl, rfl, rfl, rfl, rfl⟩, rfl, fun _ => rfl, id, rfl⟩

/-- An update of the blocks that events work on. -/
theorem Keeps.of_rest {s t : State} (h : t = { s with
    host := t.host, pq := t.pq, link := t.link, out := t.out, sources := t.sources, aq := t.aq }) : Keeps s t := by
  rw [h]
  exact ⟨.of_rest rfl, rfl, rfl⟩

theorem Keeps.withHost (h : Keeps s t) (v : HostPath) : Keeps s (t.withHost v) := h.trans (.of_rest rfl)
theorem Keeps.withPq (h : Keeps s t) (v : PublishQueue) : Keeps s (t.withPq v) := h.trans (.of_rest rfl)
theorem Keeps.withLink (h : Keeps s t) (v : LinkInterface) : Keeps s (t.withLink v) := h.trans (.of_rest rfl)
theorem Keeps.withOut (h : Keeps s t) (v : OutputArbiter) : Keeps s (t.withOut v) := h.trans (.of_rest rfl)
theorem Keeps.withSources (h : Keeps s t) (v : Vector SeqEntry 16) : Keeps s (t.withSources v) := h.trans (.of_rest rfl)
theorem Keeps.withAq (h : Keeps s t) (v : ApplyQueue) : Keeps s (t.withAq v) := h.trans (.of_rest rfl)

theorem Keeps.withOrig (h : Keeps s t) {v : Origination} (hv : v.nextSeq = t.orig.nextSeq) : Keeps s (t.withOrig v) :=
  h.trans ⟨.of_rest rfl, rfl, hv⟩

theorem Keeps.withNode (h : Keeps s t) {v : NodeControl} (hv : t.node.level = .isolated → v.level = .isolated)
    (hs : v.settings = t.node.settings) : Keeps s (t.withNode v) :=
  h.trans ⟨⟨⟨rfl, rfl, rfl, rfl, rfl⟩, rfl, fun _ => rfl, hv, hs⟩, rfl, rfl⟩

theorem Keeps.withWindows (h : Keeps s t) {v : Vector Window 16}
    (hv : ∀ i : WinIdx, v[i].plain = t.windows[i].plain) : Keeps s (t.withWindows v) :=
  h.trans ⟨⟨⟨rfl, rfl, rfl, rfl, rfl⟩, rfl, hv, id, rfl⟩, rfl, rfl⟩

/-- A record replaced by one of the same configuration. -/
theorem Keeps.setWindow (h : Keeps s t) {i : WinIdx} {w : Window} (hw : w.plain = t.windows[i].plain) :
    Keeps s (t.setWindow i w) := by
  refine h.withWindows fun j => ?_
  by_cases hij : i.val = j.val
  · cases Fin.ext hij
    simpa using hw
  · simp [Vector.getElem_set_ne _ _ hij]

end Blocks

/-! ## Window flags and counts

Each lemma says that an operation keeps what the event has kept so far. -/

section Operations
variable {s t : State} {e : Event}

theorem Event.requestDiverged_keeps (h : Keeps s e.toState) (i : WinIdx) : Keeps s (e.requestDiverged i).toState := by
  rw [Event.requestDiverged_eq]
  split
  · exact h.setWindow rfl
  · exact h

theorem Event.requestStale_keeps (h : Keeps s e.toState) (i : WinIdx) : Keeps s (e.requestStale i).toState := by
  rw [Event.requestStale_eq]
  split
  · exact h.setWindow rfl
  · exact h

theorem Event.requestDivergedAll_keeps (h : Keeps s e.toState) (is : List WinIdx) :
    Keeps s (e.requestDivergedAll is).toState := by
  induction is generalizing e with
  | nil => exact h
  | cons i is ih => exact ih (Event.requestDiverged_keeps h i)

theorem Event.requestStaleAll_keeps (h : Keeps s e.toState) (is : List WinIdx) :
    Keeps s (e.requestStaleAll is).toState := by
  induction is generalizing e with
  | nil => exact h
  | cons i is ih => exact ih (Event.requestStale_keeps h i)

theorem Event.advanceUpdates_keeps (h : Keeps s e.toState) (i : WinIdx) : Keeps s (e.advanceUpdates i).toState :=
  h.setWindow rfl

/-! ## Queues -/

theorem Event.createEntry_keeps (h : Keeps s e.toState) (r : CaptureRequest) : Keeps s (e.createEntry r).toState := by
  refine Event.advanceUpdates_keeps (e := e.on _) ?_ _
  exact h.withPq _

theorem Event.combineTail_keeps (h : Keeps s e.toState) (r : CaptureRequest) (x : PqEntry) :
    Keeps s (e.combineTail r x).toState := by
  refine Event.advanceUpdates_keeps (e := e.on _) ?_ _
  exact h.withPq _

theorem Event.capture_keeps (h : Keeps s e.toState) {e' : Event} {r : CaptureRequest} (hc : e.capture r = some e') :
    Keeps s e'.toState := by
  rcases e.capture_cases r with ⟨x, -, -, hx⟩ | ⟨-, -, hx⟩ | ⟨-, -, hx⟩
  · cases hx.symm.trans hc; exact Event.combineTail_keeps h r x
  · cases hx.symm.trans hc; exact Event.createEntry_keeps h r
  · cases hx.symm.trans hc

theorem endPublishHold_keeps (h : Keeps s t) (cls : HostClass) (w : Option WinIdx) :
    Keeps s (endPublishHold cls w t) := (h.withHost _).withPq _

theorem Event.demoteUnpublished_keeps (h : Keeps s e.toState) : Keeps s e.demoteUnpublished.toState := by
  unfold Event.demoteUnpublished
  split
  · cases heldWindow e.toState with
    | none => exact endPublishHold_keeps h _ _
    | some i => exact Event.requestDiverged_keeps (e := e.on _) (endPublishHold_keeps h _ _) i
  · exact h

theorem demotePlain_keeps (h : Keeps s t) : Keeps s (demotePlain t) := by
  unfold demotePlain
  split
  · exact endPublishHold_keeps h _ _
  · exact h

theorem Event.expirePublishHold_keeps (h : Keeps s e.toState) : Keeps s e.expirePublishHold.toState := by
  unfold Event.expirePublishHold
  split
  · exact Event.demoteUnpublished_keeps h
  · exact h

theorem Event.roomCheck_keeps (h : Keeps s e.toState) : Keeps s e.roomCheck.toState := by
  rcases e.roomCheck_cases with hr | ⟨r, -, -, -, hr⟩
  · rw [hr]; exact h
  · rw [hr]; exact Event.createEntry_keeps (endPublishHold_keeps h _ _) r

theorem Event.discardPq_keeps (h : Keeps s e.toState) : Keeps s e.discardPq.toState := by
  refine Event.requestDivergedAll_keeps (e := e.on _) ?_ _
  exact h.withPq _

theorem Event.discardFlight_keeps (h : Keeps s e.toState) : Keeps s e.discardFlight.toState := by
  refine Event.requestDivergedAll_keeps (e := e.on _) ?_ _
  exact h.withOrig rfl

theorem releaseReadHold_keeps (h : Keeps s t) : Keeps s (releaseReadHold t) := by
  rcases releaseReadHold_cases t with ⟨-, -, hr⟩ | ⟨-, hr⟩
  · rw [hr]; exact h.withHost _
  · rw [hr]; exact h

theorem voidWaiting_keeps (h : Keeps s t) (which : AqEntry → Bool) : Keeps s (voidWaiting which t) :=
  releaseReadHold_keeps (h.withAq _)

theorem Event.applyWordDone_keeps (h : Keeps s e.toState) : Keeps s e.applyWordDone.toState := by
  unfold Event.applyWordDone
  split
  · split
    · split
      · exact h.withAq _
      · refine releaseReadHold_keeps (Event.advanceUpdates_keeps (e := e.on _) ?_ _)
        exact h.withAq _
    · exact h
  · exact h

/-! ## Acceptance and completion of a host cycle -/

theorem acceptPlain_keeps (h : Keeps s t) (c : HostCycle) : Keeps s (acceptPlain c t) := by
  unfold acceptPlain
  dsimp only
  split
  · split
    · exact h.withHost _
    · exact h.withHost _
  · exact h.withHost _

theorem Event.acceptPublish_keeps (h : Keeps s e.toState) (c : HostCycle) (i : WinIdx) :
    Keeps s (e.acceptPublish c i).toState := by
  unfold Event.acceptPublish
  dsimp only
  split
  next e' hc => exact (Event.capture_keeps h hc).withHost _
  next =>
    split
    · exact Event.expirePublishHold_keeps ((h.withHost _).withPq _)
    · exact (h.withHost _).withPq _

theorem Event.accept_keeps (h : Keeps s e.toState) (c : HostCycle) : Keeps s (e.accept c).toState := by
  have mark : Keeps s (markAccepted e.toState) := h.withHost _
  unfold Event.accept
  dsimp only
  split
  · exact Event.acceptPublish_keeps mark c _
  · refine Event.requestDiverged_keeps ?_ _
    exact mark.withHost _
  · refine Event.requestStale_keeps ?_ _
    exact mark.withHost _
  · exact mark.withHost _
  · exact acceptPlain_keeps mark c

theorem Event.acceptPresented_keeps (h : Keeps s e.toState) : Keeps s e.acceptPresented.toState := by
  rcases e.acceptPresented_cases with ⟨c, -, -, hc⟩ | ⟨-, hc⟩
  · rw [hc]; exact Event.accept_keeps h c
  · rw [hc]; exact h

/-- The state in which a completed memory cycle goes on: the port FREE and, for a write, memory written. -/
def memoryServed (c : MemCycle) (s : State) : State :=
  match c.dir with
  | .write => (s.withArb { s.arb with cycle := none }).withMem (s.mem.writeWord c.word c.lanes c.data)
  | .read => s.withArb { s.arb with cycle := none }

/-- What a completed cycle returns: a read's data, on the lanes not enabled what memory drives (assumption 3). -/
def MemCycle.returns (c : MemCycle) (m : Memory) (sd : Word) : Option Word :=
  match c.dir with
  | .read => some (mergeLanes sd (m.readWord c.word) c.lanes)
  | .write => none

theorem Event.memoryDone_of_host (e : Event) {c : MemCycle} (sd : Word) (hg : c.grant = .host) :
    e.memoryDone c sd =
      ((e.on (memoryServed c)).on (completeHostCycle (c.returns e.mem sd))).acceptPresented := by
  unfold Event.memoryDone memoryServed MemCycle.returns
  rw [hg]
  cases c.dir with
  | read => rfl
  | write => rfl

theorem Event.memoryDone_of_apply (e : Event) {c : MemCycle} (sd : Word) (hg : c.grant = .apply) :
    e.memoryDone c sd = (e.on (memoryServed c)).applyWordDone := by
  unfold Event.memoryDone memoryServed
  rw [hg]
  cases c.dir with
  | read => rfl
  | write => rfl

theorem Event.memoryDone_keeps {c : MemCycle} (h : Keeps s (memoryServed c e.toState)) (sd : Word) :
    Keeps s (e.memoryDone c sd).toState := by
  cases hg : c.grant with
  | host =>
    rw [e.memoryDone_of_host sd hg]
    exact Event.acceptPresented_keeps (h.withHost _)
  | apply =>
    rw [e.memoryDone_of_apply sd hg]
    exact Event.applyWordDone_keeps h

/-! ## Levels and reports -/

theorem setMode_keeps (h : Keeps s t) (m : Mode) : Keeps s (setMode m t) := h.withNode id rfl

theorem abandonAnnounce_keeps (h : Keeps s t) : Keeps s (abandonAnnounce t) := h.withOrig rfl

theorem Event.isolate_keeps (h : Keeps s e.toState) : Keeps s e.isolate.toState := by
  have level : Keeps s (setLevel .isolated e.toState) := h.withNode (fun _ => rfl) rfl
  exact abandonAnnounce_keeps (Event.discardFlight_keeps (Event.demoteUnpublished_keeps (Event.discardPq_keeps
    (setMode_keeps level _))))

theorem Event.evaluateLevel_keeps (h : Keeps s e.toState) : Keeps s e.evaluateLevel.toState := by
  rcases e.evaluateLevel_cases with ⟨-, -, hl⟩ | ⟨hn, hl⟩ | ⟨hn, -, -, hl⟩ | hl
  · rw [hl]; exact Event.isolate_keeps h
  · rw [hl]; exact h.withNode (fun hi => by simp [hn] at hi) rfl
  · rw [hl]; exact h.withNode (fun hi => by simp [hn] at hi) rfl
  · rw [hl]; exact h

@[simp] theorem Report.apply_level (r : Report) (n : NodeControl) : (r.apply n).level = n.level := by
  cases r <;> rfl

theorem Event.reportUnder_keeps (h : Keeps s e.toState) (m : Mode) (r : Report) :
    Keeps s (e.reportUnder m r).toState := by
  unfold Event.reportUnder
  split
  · exact h
  · exact Event.evaluateLevel_keeps (h.withNode (fun hi => (r.apply_level _).trans hi) (r.apply_settings _))

theorem Event.report_keeps (h : Keeps s e.toState) (r : Report) : Keeps s (e.report r).toState :=
  Event.reportUnder_keeps h _ r

theorem Event.drainCheck_keeps (h : Keeps s e.toState) : Keeps s e.drainCheck.toState := by
  rcases e.drainCheck_cases with ⟨-, -, -, hd⟩ | ⟨-, hd⟩
  · rw [hd]; exact setMode_keeps h _
  · rw [hd]; exact h

/-! ## Returns and timers -/

theorem createAnnounce_keeps (h : Keeps s t) : Keeps s (createAnnounce t) := h.withOrig rfl

theorem Event.giveUp_keeps (h : Keeps s e.toState) (q : Byte) : Keeps s (e.giveUp q).toState := by
  have flight : Keeps s (e.raise (.deliveryFailed q)).discardFlight.toState := Event.discardFlight_keeps h
  unfold Event.giveUp
  dsimp only
  split
  · exact createAnnounce_keeps (setMode_keeps flight _)
  · exact setMode_keeps (Event.discardPq_keeps flight) _
  · exact flight
  · exact flight

theorem Event.goBack_keeps (h : Keeps s e.toState) (objection : Bool) : Keeps s (e.goBack objection).toState := by
  rcases e.goBack_cases objection with ⟨-, hg⟩ | ⟨x, rest, -, -, hg⟩ | ⟨x, rest, -, -, hg⟩
  · rw [hg]; exact h
  · rw [hg]; exact Event.giveUp_keeps h _
  · rw [hg]; exact h.withOrig rfl

theorem Event.goBackReported_keeps (h : Keeps s e.toState) (objection : Bool) (r : Report) :
    Keeps s (e.goBackReported objection r).toState :=
  Event.reportUnder_keeps (Event.goBack_keeps h objection) _ _

theorem Event.retire_keeps (h : Keeps s e.toState) : Keeps s e.retire.toState := by
  refine Event.drainCheck_keeps (Event.report_keeps (e := e.on _) ?_ _)
  exact h.withOrig rfl

theorem countStale_keeps (h : Keeps s t) : Keeps s (countStale t) := h.withOrig rfl

theorem Event.updateReturned_keeps (h : Keeps s e.toState) (f : Frame) : Keeps s (e.updateReturned f).toState := by
  unfold Event.updateReturned
  split
  · exact h
  · split
    · exact countStale_keeps h
    · split
      · exact Event.goBackReported_keeps h _ _
      · split
        · exact Event.retire_keeps h
        · exact Event.goBackReported_keeps h _ _

theorem Event.announceReturned_keeps (h : Keeps s e.toState) (f : Frame) :
    Keeps s (e.announceReturned f).toState := by
  unfold Event.announceReturned
  split
  · split
    · exact setMode_keeps (abandonAnnounce_keeps h) _
    · exact countStale_keeps h
  · exact countStale_keeps h

theorem Event.returned_keeps (h : Keeps s e.toState) (f : Frame) : Keeps s (e.returned f).toState := by
  unfold Event.returned
  split
  · exact Event.updateReturned_keeps h f
  · exact Event.announceReturned_keeps h f

/-! ## Arrivals -/

theorem updateSource_keeps (h : Keeps s t) (n : NodeId) (f : SeqEntry → SeqEntry) : Keeps s (updateSource n f t) :=
  h.withSources _

theorem Event.take_keeps (h : Keeps s e.toState) (n : NodeId) : Keeps s (e.take n).toState := updateSource_keeps h _ _

theorem Event.forward_keeps (h : Keeps s e.toState) (f : Frame) (nak : Bool) : Keeps s (e.forward f nak).toState := by
  rcases e.forward_cases f nak with ⟨-, hf⟩ | ⟨-, hf⟩
  · rw [hf]
    refine Event.report_keeps ?_ _
    exact h
  · rw [hf]; exact h.withOut _

theorem Event.inOrder_keeps (h : Keeps s e.toState) (f : Frame) (ch : Byte) (span : SpanOffset) (mask : SpanMask)
    (words : List Word) : Keeps s (e.inOrder f ch span mask words).1.toState := by
  rcases e.inOrder_cases f ch span mask words with
    ⟨-, hi⟩ | ⟨i, -, ⟨-, hi⟩ | ⟨-, -, hi⟩ | ⟨-, -, ⟨-, hi⟩ | ⟨-, -, hi⟩ | ⟨-, -, hi⟩⟩⟩
  · rw [hi]; exact Event.take_keeps h _
  · rw [hi]; exact h.withSources _
  · rw [hi]; exact h.withSources _
  · rw [hi]; exact (h.withAq _).withSources _
  · rw [hi]; exact h
  · rw [hi]; exact Event.take_keeps (Event.requestStale_keeps h i) _

theorem Event.updateArrived_keeps (h : Keeps s e.toState) (f : Frame) (ch : Byte) (span : SpanOffset)
    (mask : SpanMask) (words : List Word) : Keeps s (e.updateArrived f ch span mask words).1.toState := by
  unfold Event.updateArrived
  dsimp only
  split
  · refine Event.inOrder_keeps ?_ _ _ _ _ _
    exact h.withSources _
  · split
    · exact Event.inOrder_keeps h _ _ _ _ _
    · split
      · split
        · exact h.withSources _
        · refine Event.inOrder_keeps ?_ _ _ _ _ _
          refine Keeps.withSources (Event.requestStaleAll_keeps ?_ _) _
          exact h.withSources _
      · exact h.withSources _

theorem countOrphan_keeps (h : Keeps s t) : Keeps s (countOrphan t) := h.withLink _

theorem Event.goodArrival_keeps (h : Keeps s e.toState) (f : Frame) : Keeps s (e.goodArrival f).toState := by
  unfold Event.goodArrival
  split
  · exact Event.returned_keeps h f
  · split
    · exact countOrphan_keeps h
    · split
      · exact Event.forward_keeps h f f.nak
      · split
        · refine Event.forward_keeps ?_ f f.nak
          exact h.withSources _
        · refine Event.forward_keeps ?_ f _
          exact Event.updateArrived_keeps h f _ _ _ _

theorem Event.receive_keeps (h : Keeps s e.toState) (bytes : List Byte) : Keeps s (e.receive bytes).toState := by
  unfold Event.receive
  split
  · exact Event.report_keeps h _
  · refine Event.goodArrival_keeps ?_ _
    exact Event.report_keeps h _

/-! ## The inbound link -/

theorem stampTransition_keeps (h : Keeps s t) : Keeps s (stampTransition t) := h.withLink _

theorem Event.cutOff_keeps (h : Keeps s e.toState) : Keeps s e.cutOff.toState := by
  unfold Event.cutOff
  split
  · refine Event.report_keeps ?_ _
    exact h.withLink _
  · exact h

theorem Event.enterUp_keeps (h : Keeps s e.toState) : Keeps s e.enterUp.toState := h.withLink _

theorem Event.loseAlignment_keeps (h : Keeps s e.toState) : Keeps s e.loseAlignment.toState := h.withLink _

theorem Event.frameEnd_keeps (h : Keeps s e.toState) (bytes : List Byte) : Keeps s (e.frameEnd bytes).toState := by
  refine Event.receive_keeps (e := e.on _) ?_ bytes
  exact h.withLink _

theorem Event.validInUp_keeps (h : Keeps s e.toState) (sym : Symbol) : Keeps s (e.validInUp sym).toState := by
  have run : Keeps s (e.toState.withLink { e.link with invalidRun := 0 }) := h.withLink _
  unfold Event.validInUp
  dsimp only
  split
  · refine Keeps.withLink (Event.cutOff_keeps ?_) _
    exact run
  · exact run.withLink _
  · split
    · refine Event.cutOff_keeps ?_
      exact run
    · exact run.withLink _
  · refine Event.frameEnd_keeps ?_ _
    exact run
  · refine Event.cutOff_keeps ?_
    exact run
  · exact run

theorem Event.invalidInUp_keeps (h : Keeps s e.toState) : Keeps s e.invalidInUp.toState := by
  unfold Event.invalidInUp
  dsimp only
  split
  · exact Event.loseAlignment_keeps (Event.cutOff_keeps h)
  · exact (Event.cutOff_keeps h).withLink _

theorem Event.symbol_keeps (h : Keeps s e.toState) (sym : Symbol) : Keeps s (e.symbol sym).toState := by
  unfold Event.symbol
  split
  · exact h
  · split
    · exact h.withLink _
    · split
      · exact Event.enterUp_keeps h
      · exact h.withLink _
  · split
    · exact Event.invalidInUp_keeps h
    · exact Event.validInUp_keeps h sym

theorem Event.loseSignal_keeps (h : Keeps s e.toState) : Keeps s e.loseSignal.toState := by
  unfold Event.loseSignal
  dsimp only
  split
  · exact (Event.cutOff_keeps h).withLink _
  · exact (Event.cutOff_keeps h).withLink _

/-! ## Commands of the node -/

theorem Event.flushClass_keeps (h : Keeps s e.toState) (c : PrioClass) : Keeps s (e.flushClass c).toState := by
  refine Event.drainCheck_keeps (Event.roomCheck_keeps (Event.requestDivergedAll_keeps (e := e.on _) ?_ _))
  exact h.withPq _

theorem demoteHeldOn_keeps (h : Keeps s t) (i : WinIdx) : Keeps s (demoteHeldOn i t) := by
  unfold demoteHeldOn
  split
  · exact demotePlain_keeps h
  · exact h

theorem voidOfWindow_keeps (h : Keeps s t) (i : WinIdx) : Keeps s (voidOfWindow i t) := by
  unfold voidOfWindow
  split
  · exact voidWaiting_keeps h _
  · exact h

theorem zeroUpdates_keeps (h : Keeps s t) : Keeps s (zeroUpdates t) := h.withWindows fun i => by simp [Window.plain]

/-! ## The choices after an event -/

theorem Event.sendOffer_stands (e : Event) (o : Offer) : Stands e.toState (e.sendOffer o).toState := by
  cases o with
  | announce r => exact .of_rest rfl
  | resend f =>
    simp only [Event.sendOffer, Event.commitOffer]
    cases flightPosition e.orig.flight f.seq with
    | none => exact .of_rest rfl
    | some i => exact .of_rest rfl
  | fresh p =>
    let departed : Event := e.on fun s => (s.withPq s.pq.dropOffer).withOrig
      { s.orig with flight := s.orig.flight ++ [p.depart s.orig.nextSeq s.node.timebase]
                    nextSeq := s.orig.nextSeq + 1 }
    have left : Stands e.toState departed.toState := .of_rest rfl
    have room : Keeps departed.toState departed.roomCheck.toState := Event.roomCheck_keeps (.refl _)
    exact (left.trans room.toStands).trans (.of_rest rfl)

theorem Event.chooseOutput_stands (e : Event) : Stands e.toState e.chooseOutput.toState := by
  unfold Event.chooseOutput
  split
  · exact .refl _
  · split
    · exact e.sendOffer_stands _
    · exact .refl _
    · split
      · exact e.sendOffer_stands _
      · exact .of_rest rfl
    · exact .of_rest rfl

theorem arbitrate_stands (s : State) : Stands s (arbitrate s) := by
  obtain ⟨a, h, q, heq⟩ := arbitrate_eq s
  rw [heq]
  exact .of_rest rfl

theorem choices_stands (s : State) : Stands s (choices s) :=
  ((Event.begin s).chooseOutput_stands).trans (arbitrate_stands _)

end Operations

end Sys2Proof.Machine
end

section
/-! SUPPORT. What a command can do: it brings one event, or executes a management command, or changes one block alone.
Later proofs about every command split along these outcomes and do not unfold `exec`. -/

namespace Sys2Proof.Machine

/-! ## The events that commands bring -/

/-- What a command that stands for an event does before the arbiters choose; none where the event cannot occur. -/
def broughtEvent (c : Instr) (s : State) : Option Event :=
  match c with
  | .hostCycleAcceptance addr dir lanes data =>
    some ((Event.begin s).on (presentCycle { addr := addr, dir := dir, lanes := lanes, data := data })).acceptPresented
  | .refusedWriteCompletion =>
    if s.resetN ∧ s.host.refusedDelay then some ((Event.begin s).on signalRefused).acceptPresented else none
  | .memoryCycleCompletion sd => s.arb.cycle.map fun m => (Event.begin s).memoryDone m sd
  | .publishHoldExpiry => if publishHoldDue s then some (Event.begin s).expirePublishHold else none
  | .lossOfSignal => if lossOfSignalDue s then some (Event.begin s).loseSignal else none
  | .linkUp =>
    if s.resetN ∧ s.link.inbound = .aligning then some ((Event.begin s).on stampTransition).enterUp else none
  | .alignmentLost =>
    if s.resetN ∧ s.link.inbound = .up then some (Event.begin (runBegins s)).loseAlignment else none
  | .frameCutOff sym =>
    if s.resetN ∧ s.link.inbound = .up ∧ s.link.assembly.isSome then
      match sym with
      | .startFrame => some (((Event.begin s).on stampTransition).validInUp .startFrame)
      | .idle => some (((Event.begin s).on stampTransition).validInUp .idle)
      | .data _ =>
        some (((Event.begin s).on stampTransition).on fun s => s.withLink { s.link with invalidRun := 0 }).cutOff
      | .invalid => some (Event.begin s).invalidInUp
      | .endFrame => none
    else none
  | .frameArrival bytes =>
    if canArrive bytes s then
      some ((((Event.begin s).on stampTransition).on fun s =>
        s.withLink { s.link with invalidRun := 0 }).frameEnd bytes)
    else none
  | .transmissionCompletion =>
    if s.out.sending.isSome then some ((Event.begin s).on fun s => s.withOut { s.out with sending := none }) else none
  | .returnTimerExpiry =>
    if returnTimerDue s then some ((Event.begin s).goBackReported false .timerExpiry) else none
  | .announceTimerExpiry =>
    if announceTimerDue s then some (((Event.begin s).on retryAnnounce).report .timerExpiry) else none
  | .backoffExpiry =>
    if backoffDue s then some ((Event.begin s).on fun s => s.withOrig { s.orig with backoff := none }) else none
  | .symbolReceived group =>
    if s.resetN ∧ s.link.inbound ≠ .noSignal then
      some ((Event.begin (if groupHasTransition group then stampTransition s else s)).symbol (classifyGroup group))
    else none
  | .hardReset => if s.resetN then some ((Event.begin s).on enterHardReset) else none
  | .resetRelease straps =>
    if s.resetN then none else some ((Event.begin s).on (leaveHardReset straps)).acceptPresented
  | _ => none

/-- The state in which the event of a command works: the one before it, but for memory and the memory port at the
completion of a memory cycle, for the event of its own that begins a run of invalid symbols, and for the resets. -/
def eventBase (c : Instr) (s : State) : State :=
  match c with
  | .memoryCycleCompletion _ => s.arb.cycle.elim s fun m => memoryServed m s
  | .alignmentLost => runBegins s
  | .hardReset => enterHardReset s
  | .resetRelease straps => leaveHardReset straps s
  | _ => s

/-- The event of a command keeps what no event changes. -/
theorem broughtEvent_keeps {c : Instr} {s : State} {e : Event} (h : broughtEvent c s = some e) :
    Keeps (eventBase c s) e.toState := by
  have start : Keeps s (Event.begin s).toState := .refl s
  cases c with
  | hostCycleAcceptance addr dir lanes data =>
    cases h
    refine Event.acceptPresented_keeps ?_
    exact start.withHost _
  | refusedWriteCompletion =>
    obtain ⟨-, ⟨⟩⟩ := Option.ite_none_right_eq_some.1 h
    refine Event.acceptPresented_keeps ?_
    exact start.withHost _
  | memoryCycleCompletion sd =>
    obtain ⟨m, hm, rfl⟩ := Option.map_eq_some_iff.1 h
    have hb : s.arb.cycle.elim s (fun m => memoryServed m s) = memoryServed m s := by rw [hm]; rfl
    have served : Keeps (memoryServed m s) (memoryServed m (Event.begin s).toState) := by
      rw [Event.begin_toState]
      exact .refl _
    change Keeps (s.arb.cycle.elim s fun m => memoryServed m s) _
    rw [hb]
    exact Event.memoryDone_keeps served sd
  | publishHoldExpiry =>
    obtain ⟨-, ⟨⟩⟩ := Option.ite_none_right_eq_some.1 h
    exact Event.expirePublishHold_keeps start
  | lossOfSignal =>
    obtain ⟨-, ⟨⟩⟩ := Option.ite_none_right_eq_some.1 h
    exact Event.loseSignal_keeps start
  | linkUp =>
    obtain ⟨-, ⟨⟩⟩ := Option.ite_none_right_eq_some.1 h
    refine Event.enterUp_keeps ?_
    exact stampTransition_keeps start
  | alignmentLost =>
    obtain ⟨-, ⟨⟩⟩ := Option.ite_none_right_eq_some.1 h
    refine Event.loseAlignment_keeps ?_
    exact .refl _
  | frameCutOff sym =>
    obtain ⟨-, h⟩ := Option.ite_none_right_eq_some.1 h
    cases sym with
    | startFrame => cases h; exact Event.validInUp_keeps (e := (Event.begin s).on _) (start.withLink _) _
    | idle => cases h; exact Event.validInUp_keeps (e := (Event.begin s).on _) (start.withLink _) _
    | data v =>
      cases h
      refine Event.cutOff_keeps ?_
      exact (start.withLink _).withLink _
    | invalid => cases h; exact Event.invalidInUp_keeps start
    | endFrame => cases h
  | frameArrival bytes =>
    obtain ⟨-, ⟨⟩⟩ := Option.ite_none_right_eq_some.1 h
    refine Event.frameEnd_keeps ?_ bytes
    exact (start.withLink _).withLink _
  | transmissionCompletion =>
    obtain ⟨-, ⟨⟩⟩ := Option.ite_none_right_eq_some.1 h
    exact start.withOut _
  | returnTimerExpiry =>
    obtain ⟨-, ⟨⟩⟩ := Option.ite_none_right_eq_some.1 h
    exact Event.goBackReported_keeps start _ _
  | announceTimerExpiry =>
    obtain ⟨-, ⟨⟩⟩ := Option.ite_none_right_eq_some.1 h
    refine Event.report_keeps ?_ _
    exact start.withOrig rfl
  | backoffExpiry =>
    obtain ⟨-, ⟨⟩⟩ := Option.ite_none_right_eq_some.1 h
    exact start.withOrig rfl
  | symbolReceived group =>
    obtain ⟨-, ⟨⟩⟩ := Option.ite_none_right_eq_some.1 h
    refine Event.symbol_keeps ?_ _
    split
    · exact stampTransition_keeps start
    · exact start
  | hardReset =>
    obtain ⟨-, ⟨⟩⟩ := Option.ite_none_right_eq_some.1 h
    exact .refl _
  | resetRelease straps =>
    obtain ⟨-, ⟨⟩⟩ := Option.ite_none_left_eq_some.1 h
    refine Event.acceptPresented_keeps ?_
    exact .refl _
  | _ => cases h

/-! ## The events of management commands -/

/-- The event of a management command, where it has one: the other commands change their block at once. -/
def Command.event (c : Command) (args : List Byte) (s : State) : Option Event :=
  match c with
  | .softReset => some (Event.begin s).softReset
  | .disableWindow =>
    if h : (argByte args 0).toNat < 16 then
      if s.windows[(⟨(argByte args 0).toNat, h⟩ : WinIdx)].enabled then
        some ((Event.begin s).on fun s =>
          voidOfWindow ⟨(argByte args 0).toNat, h⟩ (demoteHeldOn ⟨(argByte args 0).toNat, h⟩
            (disableRecord ⟨(argByte args 0).toNat, h⟩ s)))
      else none
    else none
  | .flush =>
    if h : (argByte args 0).toNat < 4 then
      if s.pq.classList ⟨(argByte args 0).toNat, h⟩ = [] then none
      else some ((Event.begin s).flushClass ⟨(argByte args 0).toNat, h⟩)
    else none
  | .start =>
    if s.node.mode ≠ .offline then none
    else if s.link.inbound ≠ .up then none else some ((Event.begin s).on startNode)
  | .stop =>
    match s.node.mode with
    | .active => some ((Event.begin s).on (setMode .draining)).demoteUnpublished.drainCheck
    | .joining =>
      some (((Event.begin s).discardPq.demoteUnpublished.on fun s => setMode .offline (abandonAnnounce s)).raise
        .drainDone)
    | .draining => none
    | .offline => none
  | _ => none

/-- The commands without an event: what each makes of the state. -/
def Command.direct (c : Command) (args : List Byte) (s : State) : State :=
  match c with
  | .setParams => (setParamsEffect (arg16 args 0) (arg16 args 2) (argByte args 4) (arg16 args 5) s).1
  | .writeWindow =>
    (writeWindowEffect (argByte args 0) (argByte args 1) (argByte args 2 ++ argByte args 3 ++ argByte args 4)
      (argByte args 5) (argByte args 6) (argByte args 7) (argByte args 8) (argByte args 9) s).1
  | .enableWindow => (enableWindowEffect (argByte args 0) s).1
  | .clearWindow => (clearWindowEffect (argByte args 0) s).1
  | .setEnables => (setEnablesEffect (arg16 args 0) s).1
  | .ackEvents => (ackEventsEffect (arg16 args 0) s).1
  | .takeIncident => (takeIncidentEffect s).1
  | _ => s

theorem withIndex_fst (n : Byte) (s : State) (f : Fin 16 → State × List Byte) (h : ∀ i, (f i).1 = s) :
    (withIndex n s f).1 = s := by
  unfold withIndex
  split
  · exact h _
  · rfl

/-- A command's effect on the state is its event, brought to its end, or its change of one block. -/
theorem Command.effect_fst (c : Command) (args : List Byte) (s : State) :
    (c.effect args s).1 = (c.event args s).elim (c.direct args s) Event.finish := by
  cases c with
  | disableWindow =>
    simp only [Command.effect, Command.event, disableWindowEffect, withIndex]
    split
    · split
      · rfl
      · rfl
    · rfl
  | flush =>
    simp only [Command.effect, Command.event, flushEffect]
    split
    · split
      · rfl
      · rfl
    · rfl
  | start =>
    simp only [Command.effect, Command.event, startEffect]
    split
    · rfl
    · split
      · rfl
      · rfl
  | stop =>
    simp only [Command.effect, Command.event, stopEffect]
    cases s.node.mode with
    | offline => rfl
    | joining => rfl
    | active => rfl
    | draining => rfl
  | readWindow => exact withIndex_fst _ _ _ fun _ => rfl
  | readSource => exact withIndex_fst _ _ _ fun _ => rfl
  | ident | status | readParams | setParams | softReset | writeWindow | enableWindow | clearWindow | readEvents
  | setEnables | ackEvents | takeIncident | unknown => rfl

/-! ## The outcomes of a command -/

/-- What a command makes of a state. -/
inductive Outcome (c : Instr) (s : State) : State → Prop
  /-- The event cannot occur, or has no effect. -/
  | unchanged : Outcome c s s
  /-- The command's event, brought to its end. -/
  | event (e : Event) (h : broughtEvent c s = some e) : Outcome c s e.finish
  /-- The last bit of a management command arrives and it executes. -/
  | executed (m : Command) (args : List Byte) (hr : s.resetN = true) (hp : s.mgmt.txn.port = .receiving) :
    Outcome c s (executeCommand m args (setMclk true s))
  /-- TIMEBASE_ADVANCE. -/
  | advanced (hc : c = .timebaseAdvance) (hr : s.resetN = true) :
    Outcome c s (s.withNode { s.node with timebase := s.node.timebase + 1 })
  /-- SIGNAL_DETECTED. -/
  | detected (hr : s.resetN = true) :
    Outcome c s (s.withLink { s.link with
      lastTransition := s.node.timebase
      inbound := if s.link.inbound = .noSignal then .aligning else s.link.inbound
      validRun := if s.link.inbound = .noSignal then 0 else s.link.validRun })
  /-- HSTB_N_RELEASE. -/
  | released : Outcome c s (releaseStrobe s)
  /-- An edge at the management port. -/
  | port (m : ManagementPort) (hl : ResetHeld s → PortLaw s → PortLaw (s.withMgmt m))
    (hh : s.resetN = false → m.txn = s.mgmt.txn ∧ m.mdo = s.mgmt.mdo) : Outcome c s (s.withMgmt m)
  /-- The end of a transaction with a removal pending in TRAILING. -/
  | removed (hc : c = .transactionEnd) (hr : s.resetN = true) :
    Outcome c s ((removeIncident s).withMgmt { s.mgmt with mselN := true, txn := Transaction.idle, mdo := none })

/-! ### Events -/

theorem outcome_of_event {c : Instr} {s t : State}
    (h : (Host.Outcome.next ((broughtEvent c s).elim s Event.finish) : Host.Outcome State Fault Refusal) = .next t) :
    Outcome c s t := by
  cases he : broughtEvent c s with
  | none => rw [he] at h; cases h; exact .unchanged
  | some e => rw [he] at h; cases h; exact .event e he

theorem elim_ite {p : Prop} [Decidable p] (e : Event) (s : State) :
    (.next (Option.elim (if p then some e else none) s Event.finish) : Host.Outcome State Fault Refusal) =
      if p then .next e.finish else .next s := by
  split
  · rfl
  · rfl

theorem broughtEvent_memoryCycleCompletion (sd : Word) (s : State) :
    broughtEvent (.memoryCycleCompletion sd) s = s.arb.cycle.map fun m => (Event.begin s).memoryDone m sd := rfl

theorem exec_memoryCycleCompletion (sd : Word) (s : State) :
    exec (.memoryCycleCompletion sd) s = .next ((broughtEvent (.memoryCycleCompletion sd) s).elim s Event.finish) := by
  change execMemoryCycleCompletion sd s = _
  rw [broughtEvent_memoryCycleCompletion, execMemoryCycleCompletion]
  cases s.arb.cycle with
  | none => rfl
  | some m => rfl

theorem exec_frameCutOff (sym : Symbol) (s : State) :
    exec (.frameCutOff sym) s = .next ((broughtEvent (.frameCutOff sym) s).elim s Event.finish) := by
  change execFrameCutOff sym s = _
  unfold execFrameCutOff
  split
  next h =>
    cases sym with
    | data v => rw [show broughtEvent (.frameCutOff (.data v)) s = some _ from if_pos h]; rfl
    | idle => rw [show broughtEvent (.frameCutOff .idle) s = some _ from if_pos h]; rfl
    | startFrame => rw [show broughtEvent (.frameCutOff .startFrame) s = some _ from if_pos h]; rfl
    | endFrame => rw [show broughtEvent (.frameCutOff .endFrame) s = none from if_pos h]; rfl
    | invalid => rw [show broughtEvent (.frameCutOff .invalid) s = some _ from if_pos h]; rfl
  next h => rw [show broughtEvent (.frameCutOff sym) s = none from if_neg h]; rfl

theorem broughtEvent_resetRelease (straps : NodeId) (s : State) :
    broughtEvent (.resetRelease straps) s =
      if s.resetN then none else some ((Event.begin s).on (leaveHardReset straps)).acceptPresented := rfl

theorem exec_resetRelease (straps : NodeId) (s : State) :
    exec (.resetRelease straps) s = .next ((broughtEvent (.resetRelease straps) s).elim s Event.finish) := by
  change execResetRelease straps s = _
  rw [broughtEvent_resetRelease, execResetRelease]
  split
  · rfl
  · rfl

/-- The commands that stand for an event. -/
def isEvent : Instr → Bool
  | .hostCycleAcceptance _ _ _ _ => true
  | .refusedWriteCompletion => true
  | .memoryCycleCompletion _ => true
  | .publishHoldExpiry => true
  | .lossOfSignal => true
  | .linkUp => true
  | .alignmentLost => true
  | .frameCutOff _ => true
  | .frameArrival _ => true
  | .transmissionCompletion => true
  | .returnTimerExpiry => true
  | .announceTimerExpiry => true
  | .backoffExpiry => true
  | .symbolReceived _ => true
  | .hardReset => true
  | .resetRelease _ => true
  | _ => false

/-- A command that stands for an event brings it to its end; where it cannot occur nothing happens. -/
theorem exec_of_isEvent {c : Instr} (h : isEvent c = true) (s : State) :
    exec c s = .next ((broughtEvent c s).elim s Event.finish) := by
  cases c with
  | hostCycleAcceptance addr dir lanes data => rfl
  | memoryCycleCompletion sd => exact exec_memoryCycleCompletion sd s
  | frameCutOff sym => exact exec_frameCutOff sym s
  | resetRelease straps => exact exec_resetRelease straps s
  | refusedWriteCompletion | publishHoldExpiry | lossOfSignal | linkUp | alignmentLost | frameArrival
  | transmissionCompletion | returnTimerExpiry | announceTimerExpiry | backoffExpiry | symbolReceived | hardReset =>
    exact (elim_ite _ s).symm
  | _ => cases h

/-! ### The management port -/

section Port
variable {c : Instr} {s t : State}

theorem outcome_of_commandRow {m : Command} {args : List Byte} (h : commandRow m args s = .next t) :
    Outcome c s t := by
  rw [commandRow_eq] at h
  split at h
  next hc =>
    obtain ⟨hr, hcan⟩ := hc
    simp only [Transaction.canComplete, Bool.and_eq_true, decide_eq_true_eq] at hcan
    obtain ⟨⟨hp, -⟩, -⟩ := hcan
    cases h
    exact .executed m args hr hp
  next => cases h; exact .unchanged

theorem outcome_of_transactionBegin (h : execTransactionBegin s = .next t) : Outcome c s t := by
  unfold execTransactionBegin at h
  split at h
  next hm =>
    have idle (hl : PortLaw s) : s.mgmt.txn = Transaction.idle := by
      by_contra hn
      obtain ⟨hd, hsel, -⟩ := hl
      have hp : s.mgmt.txn.port ≠ .deselected := fun hp => hn (hd hp)
      simp [hsel hp] at hm
    dsimp only at h
    split at h
    next hb =>
      cases h
      refine .port { s.mgmt with mselN := false, txn := { Transaction.idle with port := .receiving }, mdo := some false }
        (fun _ _ => ?_) fun hr => by simp [hb.1] at hr
      simp [PortLaw, Transaction.idle]
    next =>
      cases h
      refine .port { s.mgmt with mselN := false } (fun _ hl => ?_) fun _ => ⟨rfl, rfl⟩
      have hi := idle hl
      simp [PortLaw, hi, Transaction.idle]
  next => cases h; exact .unchanged

theorem portLaw_ended (s : State) (b c : Bool) :
    PortLaw (s.withMgmt { txn := Transaction.idle, mselN := b, mclk := c, mdo := none }) := by
  simp [PortLaw, Transaction.idle]

/-- While RESET_N is low there is no transaction and MDO is not driven (R180). -/
theorem outcome_of_transactionEnd (h : execTransactionEnd s = .next t) (hc : c = .transactionEnd) :
    Outcome c s t := by
  unfold execTransactionEnd at h
  split at h
  · cases h; exact .unchanged
  · dsimp only at h
    split at h
    next hr =>
      cases h
      unfold endTransaction
      dsimp only
      split
      · exact .removed hc hr
      · exact .port { s.mgmt with mselN := true, txn := Transaction.idle, mdo := none } (fun _ _ => portLaw_ended s _ _)
          fun hr' => by simp [hr] at hr'
    next hr =>
      cases h
      simp only [Bool.not_eq_true] at hr
      refine .port { s.mgmt with mselN := true } (fun held _ => ?_) fun _ => ⟨rfl, rfl⟩
      obtain ⟨-, -, -, -, -, -, -, -, -, -, -, -, -, -, hi, hd⟩ := held hr
      simpa [hi, hd] using portLaw_ended s true s.mgmt.mclk

/-- The law of the port is about the transaction, MSEL_N, MDO and the head of the Incident Queue, not about MCLK. -/
theorem portLaw_setMclk (b : Bool) (h : PortLaw s) : PortLaw (setMclk b s) := h

/-- A bit received that completes no byte. -/
theorem portLaw_bitReceived {b : Byte} (hp : s.mgmt.txn.port = .receiving) (hn : s.mgmt.txn.bitCount + 1 ≠ 8)
    (h : PortLaw s) : PortLaw (setTxn { s.mgmt.txn with bitCount := s.mgmt.txn.bitCount + 1, shift := b } s) := by
  obtain ⟨-, hsel, hrec, -, -, hbit, hrem, hmdo⟩ := h
  have hlt : s.mgmt.txn.bitCount + 1 < 8 := by omega
  exact ⟨fun hd => by simp [setTxn, hp] at hd, hsel, hrec, fun hd => by simp [setTxn, hp] at hd,
    fun hd => by simp [setTxn, hp] at hd, hlt, hrem, hmdo⟩

/-- The command byte is complete and arguments are to come. -/
theorem portLaw_commandReceived {m : Command} (hp : s.mgmt.txn.port = .receiving) (hc : s.mgmt.txn.command = none)
    (hm : m.argCount ≠ 0) (h : PortLaw s) :
    PortLaw (setTxn { s.mgmt.txn with bitCount := 0, shift := 0, command := some m } s) := by
  obtain ⟨-, hsel, hrec, -, -, -, -, hmdo⟩ := h
  obtain ⟨hres, hrem, hdrop, hpos, hargs, -⟩ := hrec hp
  have hnil := hargs hc
  refine ⟨fun hd => by simp [setTxn, hp] at hd, hsel, fun _ => ⟨hres, hrem, hdrop, hpos, fun hd => ?_, ?_⟩,
    fun hd => by simp [setTxn, hp] at hd, fun hd => by simp [setTxn, hp] at hd, by simp [setTxn],
    fun hd => by simp [setTxn, hrem] at hd, hmdo⟩
  · simp [setTxn] at hd
  · simpa [setTxn, hnil] using Nat.pos_of_ne_zero hm

/-- An argument byte is complete and more are to come. -/
theorem portLaw_argumentReceived {m : Command} {b : Byte} (hp : s.mgmt.txn.port = .receiving)
    (hc : s.mgmt.txn.command = some m) (hm : (s.mgmt.txn.args ++ [b]).length < m.argCount) (h : PortLaw s) :
    PortLaw (setTxn { s.mgmt.txn with bitCount := 0, shift := 0, args := s.mgmt.txn.args ++ [b] } s) := by
  obtain ⟨-, hsel, hrec, -, -, -, -, hmdo⟩ := h
  obtain ⟨hres, hrem, hdrop, hpos, -, -⟩ := hrec hp
  refine ⟨fun hd => by simp [setTxn, hp] at hd, hsel, fun _ => ⟨hres, hrem, hdrop, hpos, fun hd => ?_, ?_⟩,
    fun hd => by simp [setTxn, hp] at hd, fun hd => by simp [setTxn, hp] at hd, by simp [setTxn],
    fun hd => by simp [setTxn, hrem] at hd, hmdo⟩
  · simp [setTxn, hc] at hd
  · simpa [setTxn, hc] using hm

/-- A response bit is sampled (R177). -/
theorem portLaw_bitSampled (hp : s.mgmt.txn.port = .responding) (h : PortLaw s) :
    PortLaw (setTxn (sampleResponse s.mgmt.txn) s) := by
  obtain ⟨-, hsel, -, hresp, -, -, hrem, hmdo⟩ := h
  obtain ⟨hcom, hres, hpos⟩ := hresp hp
  have hport : (sampleResponse s.mgmt.txn).port = .trailing ∧
      s.mgmt.txn.position + 1 = 8 * (s.mgmt.txn.response.getD []).length ∨
      (sampleResponse s.mgmt.txn).port = .responding ∧
      s.mgmt.txn.position + 1 < 8 * (s.mgmt.txn.response.getD []).length := by
    simp only [sampleResponse]
    split
    · exact .inl ⟨rfl, by omega⟩
    · exact .inr ⟨rfl, by omega⟩
  have hn : s.mgmt.mselN = false := hsel (by simp [hp])
  have hbit : (s.mgmt.txn.bitCount + 1) % 8 < 8 := Nat.mod_lt _ (by decide)
  rcases hport with ⟨ht, hlen⟩ | ⟨ht, hlen⟩
  · exact ⟨fun hd => by simp [setTxn, ht] at hd, fun _ => hn, fun hd => by simp [setTxn, ht] at hd,
      fun hd => by simp [setTxn, ht] at hd, fun _ => ⟨hcom, hres, hlen⟩, hbit, hrem, hmdo⟩
  · exact ⟨fun hd => by simp [setTxn, ht] at hd, fun _ => hn, fun hd => by simp [setTxn, ht] at hd,
      fun _ => ⟨hcom, hres, hlen⟩, fun hd => by simp [setTxn, ht] at hd, hbit, hrem, hmdo⟩

/-- Edges after the response only count. -/
theorem portLaw_trailing (hp : s.mgmt.txn.port = .trailing) (h : PortLaw s) :
    PortLaw (setTxn { s.mgmt.txn with bitCount := (s.mgmt.txn.bitCount + 1) % 8 } s) := by
  obtain ⟨-, hsel, -, -, htrail, -, hrem, hmdo⟩ := h
  exact ⟨fun hd => by simp [setTxn, hp] at hd, hsel, fun hd => by simp [setTxn, hp] at hd,
    fun hd => by simp [setTxn, hp] at hd, htrail, Nat.mod_lt _ (by decide), hrem, hmdo⟩

theorem outcome_of_clockRises {mdi : Bool} (hr : s.resetN = true) : Outcome c s (clockRises mdi (setMclk true s)) := by
  have edge (m : ManagementPort) (hl : PortLaw s → PortLaw (s.withMgmt m)) : Outcome c s (s.withMgmt m) :=
    .port m (fun _ => hl) fun h => by simp [hr] at h
  unfold clockRises
  dsimp only
  split
  · exact edge { s.mgmt with mclk := true } (portLaw_setMclk true)
  next hp =>
    unfold receiveBit
    dsimp only
    split
    · unfold receiveByte
      dsimp only
      split
      next hc =>
        split
        · exact .executed _ _ hr hp
        next hn => exact edge _ (portLaw_commandReceived (s := setMclk true s) hp hc hn)
      next m hc =>
        split
        · exact .executed _ _ hr hp
        next hn => exact edge _ (portLaw_argumentReceived (s := setMclk true s) hp hc (Nat.not_le.1 hn))
    next hn => exact edge _ (portLaw_bitReceived (s := setMclk true s) hp hn)
  next hp => exact edge _ (portLaw_bitSampled (s := setMclk true s) hp)
  next hp => exact edge _ (portLaw_trailing (s := setMclk true s) hp)

theorem outcome_of_clockFalls (hr : s.resetN = true) : Outcome c s (clockFalls (setMclk false s)) := by
  have edge (m : ManagementPort) (hl : PortLaw s → PortLaw (s.withMgmt m)) : Outcome c s (s.withMgmt m) :=
    .port m (fun _ => hl) fun h => by simp [hr] at h
  have driven (b : Bool) (hp : s.mgmt.txn.port ≠ .deselected) (hl : PortLaw s) :
      PortLaw (s.withMgmt { s.mgmt with mclk := false, mdo := some b }) := by
    obtain ⟨h1, hsel, h3, h4, h5, h6, h7, -⟩ := hl
    exact ⟨h1, hsel, h3, h4, h5, h6, h7, fun _ => hsel hp⟩
  unfold clockFalls
  split
  · exact edge { s.mgmt with mclk := false } (portLaw_setMclk false)
  next hp => exact edge _ (driven false fun hd => by cases hd.symm.trans hp)
  next hp => exact edge _ (driven _ fun hd => by cases hd.symm.trans hp)
  next hp => exact edge _ (driven false fun hd => by cases hd.symm.trans hp)

theorem outcome_of_mclkEdge {edge : MclkEdge} (h : execMclkEdge edge s = .next t) : Outcome c s t := by
  have level (b : Bool) : Outcome c s (setMclk b s) :=
    .port { s.mgmt with mclk := b } (fun _ => portLaw_setMclk b) fun _ => ⟨rfl, rfl⟩
  cases edge with
  | rising mdi =>
    unfold execMclkEdge at h
    dsimp only at h
    split at h
    · cases h; exact .unchanged
    · split at h
      next hr => cases h; exact outcome_of_clockRises hr
      · cases h; exact level true
  | falling =>
    unfold execMclkEdge at h
    dsimp only at h
    split at h
    · split at h
      next hr => cases h; exact outcome_of_clockFalls hr
      · cases h; exact level false
    · cases h; exact .unchanged

end Port

/-! ### Every command -/

theorem outcome_of_signalDetected {c : Instr} {s t : State} (h : execSignalDetected s = .next t) : Outcome c s t := by
  unfold execSignalDetected at h
  split at h
  next hr =>
    have hs : t = s.withLink { s.link with
        lastTransition := s.node.timebase
        inbound := if s.link.inbound = .noSignal then .aligning else s.link.inbound
        validRun := if s.link.inbound = .noSignal then 0 else s.link.validRun } := by
      cases h
      by_cases hi : s.link.inbound = .noSignal
      · simp [stampTransition, hi]
      · simp [stampTransition, hi]
    rw [hs]
    exact .detected hr
  next => cases h; exact .unchanged

theorem outcome_of_exec {c : Instr} {s t : State} (h : exec c s = .next t) : Outcome c s t := by
  cases c with
  | signalDetected => exact outcome_of_signalDetected h
  | hstbNRelease => cases h; exact .released
  | timebaseAdvance =>
    change (if s.resetN = true then _ else _) = _ at h
    split at h
    next hr => cases h; exact .advanced rfl hr
    next => cases h; exact .unchanged
  | transactionBegin => exact outcome_of_transactionBegin h
  | transactionEnd => exact outcome_of_transactionEnd h rfl
  | mclkEdge edge => exact outcome_of_mclkEdge h
  | unknownCommand code =>
    change (if decodeCommand code = .unknown code then _ else _) = _ at h
    split at h
    · exact outcome_of_commandRow h
    · cases h; exact .unchanged
  | ident | status | readParams | setParams | softReset | readWindow | writeWindow | enableWindow | disableWindow
  | clearWindow | flush | readSource | start | stop | readEvents | setEnables | ackEvents | takeIncident =>
    exact outcome_of_commandRow h
  | hostCycleAcceptance | refusedWriteCompletion | memoryCycleCompletion | publishHoldExpiry | lossOfSignal | linkUp
  | alignmentLost | frameCutOff | frameArrival | transmissionCompletion | returnTimerExpiry | announceTimerExpiry
  | backoffExpiry | symbolReceived | hardReset | resetRelease =>
    exact outcome_of_event ((exec_of_isEvent rfl s).symm.trans h)

end Sys2Proof.Machine
end

section
/-! SUPPORT. Which commands may change what: memory, the window configurations and the rest of the part that stands,
followed through the outcomes of a command. -/

namespace Sys2Proof.Machine

/-! ## The end of an event -/

/-- What the end of an event leaves of the moments to come (assumption 25). -/
def momentsAfter : List Nat → List Nat
  | [] => []
  | 0 :: later => later
  | (k + 1) :: later => k :: later

/-- The end of an event commits its causes; the choices that may follow leave what stands. -/
theorem Event.finish_stands (e : Event) :
    Stands (e.commit.withMoments (momentsAfter e.moments)) e.finish := by
  rcases hm : e.moments with _ | ⟨_ | k, later⟩
  · have hc : e.commit.withMoments [] = e.commit := by
      rw [← hm, ← Event.commit_moments e]; rfl
    rw [e.finish_of_alone hm, momentsAfter, hc]
    exact choices_stands _
  · rw [e.finish_of_last hm]
    exact choices_stands _
  · rw [e.finish_of_shared hm]
    exact .refl _

/-! ### The Memory Arbiter's choice alone -/

section Arbitrate
variable (s : State)

@[simp] theorem arbitrate_windows : (arbitrate s).windows = s.windows := by
  obtain ⟨a, h, q, heq⟩ := arbitrate_eq s; rw [heq]; rfl
@[simp] theorem arbitrate_pq : (arbitrate s).pq = s.pq := by
  obtain ⟨a, h, q, heq⟩ := arbitrate_eq s; rw [heq]; rfl
@[simp] theorem arbitrate_orig : (arbitrate s).orig = s.orig := by
  obtain ⟨a, h, q, heq⟩ := arbitrate_eq s; rw [heq]; rfl
@[simp] theorem arbitrate_link : (arbitrate s).link = s.link := by
  obtain ⟨a, h, q, heq⟩ := arbitrate_eq s; rw [heq]; rfl
@[simp] theorem arbitrate_out : (arbitrate s).out = s.out := by
  obtain ⟨a, h, q, heq⟩ := arbitrate_eq s; rw [heq]; rfl
@[simp] theorem arbitrate_sources : (arbitrate s).sources = s.sources := by
  obtain ⟨a, h, q, heq⟩ := arbitrate_eq s; rw [heq]; rfl
@[simp] theorem arbitrate_attn : (arbitrate s).attn = s.attn := by
  obtain ⟨a, h, q, heq⟩ := arbitrate_eq s; rw [heq]; rfl
@[simp] theorem arbitrate_mgmt : (arbitrate s).mgmt = s.mgmt := by
  obtain ⟨a, h, q, heq⟩ := arbitrate_eq s; rw [heq]; rfl
@[simp] theorem arbitrate_mem : (arbitrate s).mem = s.mem := by
  obtain ⟨a, h, q, heq⟩ := arbitrate_eq s; rw [heq]; rfl
@[simp] theorem arbitrate_resetN : (arbitrate s).resetN = s.resetN := by
  obtain ⟨a, h, q, heq⟩ := arbitrate_eq s; rw [heq]; rfl
@[simp] theorem arbitrate_pending : (arbitrate s).pending = s.pending := by
  obtain ⟨a, h, q, heq⟩ := arbitrate_eq s; rw [heq]; rfl
@[simp] theorem arbitrate_moments : (arbitrate s).moments = s.moments := by
  obtain ⟨a, h, q, heq⟩ := arbitrate_eq s; rw [heq]; rfl

/-- An Output Arbiter with a transmission in progress, or on a QUIET link, makes no choice (R73). -/
theorem Event.chooseOutput_of_busy (e : Event) (h : e.out.sending.isSome = true ∨ e.link.outbound = .quiet) :
    e.chooseOutput = e := if_pos h

theorem choices_of_busy {s : State} (h : s.out.sending.isSome = true ∨ s.link.outbound = .quiet) :
    choices s = arbitrate s := by
  rw [choices, Event.chooseOutput_of_busy (Event.begin s) h, Event.begin_toState]

end Arbitrate

section Finish
variable (e : Event)

@[simp] theorem Event.finish_resetN : e.finish.resetN = e.resetN := by simpa using e.finish_stands.resetN
@[simp] theorem Event.finish_mem : e.finish.mem = e.mem := by simpa using e.finish_stands.mem
@[simp] theorem Event.finish_pending : e.finish.pending = e.pending := by simpa using e.finish_stands.pending
@[simp] theorem Event.finish_moments : e.finish.moments = momentsAfter e.moments := by
  simpa using e.finish_stands.moments
@[simp] theorem Event.finish_attn : e.finish.attn = e.commit.attn := by simpa using e.finish_stands.attn
@[simp] theorem Event.finish_mgmt : e.finish.mgmt = e.commit.mgmt := by simpa using e.finish_stands.mgmt
@[simp] theorem Event.finish_plain (i : WinIdx) : e.finish.windows[i].plain = e.windows[i].plain := by
  simpa using e.finish_stands.plain i

/-- The choices after an event take at most one new sequence number. -/
theorem choices_nextSeq (s : State) :
    (choices s).orig.nextSeq = s.orig.nextSeq ∨ (choices s).orig.nextSeq = s.orig.nextSeq + 1 := by
  have offer (e : Event) (o : Offer) :
      (e.sendOffer o).orig.nextSeq = e.orig.nextSeq ∨ (e.sendOffer o).orig.nextSeq = e.orig.nextSeq + 1 := by
    cases o with
    | announce r => exact .inl rfl
    | resend f =>
      simp only [Event.sendOffer, Event.commitOffer]
      cases flightPosition e.orig.flight f.seq with
      | none => exact .inl rfl
      | some i => exact .inl rfl
    | fresh p =>
      let departed : Event := e.on fun s => (s.withPq s.pq.dropOffer).withOrig
        { s.orig with flight := s.orig.flight ++ [p.depart s.orig.nextSeq s.node.timebase]
                      nextSeq := s.orig.nextSeq + 1 }
      have room : Keeps departed.toState departed.roomCheck.toState := Event.roomCheck_keeps (.refl _)
      exact .inr room.nextSeq
  have chosen (e : Event) :
      e.chooseOutput.orig.nextSeq = e.orig.nextSeq ∨ e.chooseOutput.orig.nextSeq = e.orig.nextSeq + 1 := by
    unfold Event.chooseOutput
    split
    · exact .inl rfl
    · split
      · exact offer e _
      · exact .inl rfl
      · split
        · exact offer e _
        · exact .inl rfl
      · exact .inl rfl
  obtain ⟨a, h, q, heq⟩ := arbitrate_eq (Event.begin s).chooseOutput.toState
  have hq : (choices s).orig = (Event.begin s).chooseOutput.orig := by rw [choices, heq]; rfl
  rw [hq]
  exact chosen (Event.begin s)

theorem Event.finish_nextSeq : e.finish.orig.nextSeq = e.orig.nextSeq ∨ e.finish.orig.nextSeq = e.orig.nextSeq + 1 := by
  rcases hm : e.moments with _ | ⟨_ | k, later⟩
  · simpa [e.finish_of_alone hm] using choices_nextSeq e.commit
  · simpa [e.finish_of_last hm] using choices_nextSeq (e.commit.withMoments later)
  · simp [e.finish_of_shared hm]

/-- On a QUIET link, or with a transmission in progress, the end of an event leaves the Origination Unit. -/
theorem Event.finish_orig_of_busy (h : e.out.sending.isSome = true ∨ e.link.outbound = .quiet) :
    e.finish.orig = e.orig := by
  have hc : e.commit.out.sending.isSome = true ∨ e.commit.link.outbound = .quiet := by simpa using h
  rcases hm : e.moments with _ | ⟨_ | k, later⟩
  · rw [e.finish_of_alone hm, choices_of_busy hc, arbitrate_orig, Event.commit_orig]
  · rw [e.finish_of_last hm, choices_of_busy (s := e.commit.withMoments later) hc, arbitrate_orig]
    exact e.commit_orig
  · rw [e.finish_of_shared hm]
    exact e.commit_orig

end Finish

/-! ## The states in which events work -/

/-- An event works in the state before it, but for five commands. -/
theorem eventBase_cases {c : Instr} {s : State} {e : Event} (h : broughtEvent c s = some e) :
    (eventBase c s = s) ∨
    (∃ sd m, c = .memoryCycleCompletion sd ∧ s.arb.cycle = some m ∧ eventBase c s = memoryServed m s) ∨
    (c = .alignmentLost ∧ eventBase c s = runBegins s) ∨
    (c = .hardReset ∧ s.resetN = true ∧ eventBase c s = enterHardReset s) ∨
    (∃ straps, c = .resetRelease straps ∧ s.resetN = false ∧ eventBase c s = leaveHardReset straps s) := by
  cases c with
  | memoryCycleCompletion sd =>
    obtain ⟨m, hm, -⟩ := Option.map_eq_some_iff.1 h
    refine .inr (.inl ⟨sd, m, rfl, hm, ?_⟩)
    change s.arb.cycle.elim s _ = _
    rw [hm]
    rfl
  | alignmentLost => exact .inr (.inr (.inl ⟨rfl, rfl⟩))
  | hardReset =>
    obtain ⟨hr, -⟩ := Option.ite_none_right_eq_some.1 h
    exact .inr (.inr (.inr (.inl ⟨rfl, hr, rfl⟩)))
  | resetRelease straps =>
    obtain ⟨hr, -⟩ := Option.ite_none_left_eq_some.1 h
    exact .inr (.inr (.inr (.inr ⟨straps, rfl, by simpa using hr, rfl⟩)))
  | _ => exact .inl rfl

/-- Memory after a completed cycle: as it was, or with a write cycle's lanes written. -/
theorem memoryServed_cases (m : MemCycle) (s : State) :
    memoryServed m s = s.withArb { s.arb with cycle := none } ∨
    (m.dir = .write ∧ memoryServed m s =
      (s.withArb { s.arb with cycle := none }).withMem (s.mem.writeWord m.word m.lanes m.data)) := by
  unfold memoryServed
  cases m.dir with
  | read => exact .inl rfl
  | write => exact .inr ⟨rfl, rfl⟩

/-- The event that begins a run of invalid symbols changes what an event may change. -/
theorem runBegins_cases (s : State) : runBegins s = s ∨ ∃ e : Event, Keeps s e.toState ∧ runBegins s = e.commit := by
  unfold runBegins
  split
  · exact .inr ⟨_, Event.cutOff_keeps (.refl s), rfl⟩
  · exact .inl rfl

/-! ## Management commands -/

section Commands
variable {m : Command} {args : List Byte} {s : State} {e : Event}

/-- A soft reset up to the clearing of the Attention Unit. -/
def softened (e : Event) : Event :=
  e.demoteUnpublished.discardPq.discardFlight.on fun s =>
    softResetNode (softResetLinks (resetSources (voidWaiting (fun _ => true) (zeroUpdates (softResetOrigination s)))))

theorem Event.softReset_eq (e : Event) : e.softReset = (softened e).clearAttention := rfl

theorem softResetOrigination_keeps {t : State} (h : Keeps s t) : Keeps s (softResetOrigination t) := h.withOrig rfl

theorem resetSources_keeps {t : State} (h : Keeps s t) : Keeps s (resetSources t) := h.withSources _

theorem softResetLinks_keeps {t : State} (h : Keeps s t) : Keeps s (softResetLinks t) := (h.withOut _).withLink _

/-- The part of a soft reset before Node Control is set. -/
theorem softened_keeps (h : Keeps s e.toState) :
    ∃ t, Keeps s t ∧ (softened e).toState = softResetNode t := by
  refine ⟨softResetLinks (resetSources (voidWaiting (fun _ => true) (zeroUpdates
    (softResetOrigination e.demoteUnpublished.discardPq.discardFlight.toState)))), ?_, rfl⟩
  have queues : Keeps s e.demoteUnpublished.discardPq.discardFlight.toState :=
    Event.discardFlight_keeps (Event.discardPq_keeps (Event.demoteUnpublished_keeps h))
  exact softResetLinks_keeps (resetSources_keeps (voidWaiting_keeps (zeroUpdates_keeps
    (softResetOrigination_keeps queues)) _))

/-- The event of a management command: START and SOFT_RESET set the level, SOFT_RESET clears the Attention Unit,
DISABLE_WINDOW sets a window not enabled. -/
theorem Command.event_cases (h : m.event args s = some e) :
    Keeps s e.toState ∨
    (∃ i : WinIdx, m = .disableWindow ∧ Keeps (disableRecord i s) e.toState) ∨
    (m = .start ∧ e = (Event.begin s).on startNode) ∨
    (m = .softReset ∧ ∃ t, Keeps s t ∧ e.toState = (softResetNode t).withAttn Attention.reset ∧ e.raised = []) := by
  have start : Keeps s (Event.begin s).toState := .refl s
  cases m with
  | softReset =>
    cases h
    obtain ⟨t, ht, hs⟩ := softened_keeps start
    refine .inr (.inr (.inr ⟨rfl, t, ht, ?_, rfl⟩))
    rw [← hs]
    rfl
  | disableWindow =>
    simp only [Command.event] at h
    split at h
    · obtain ⟨-, ⟨⟩⟩ := Option.ite_none_right_eq_some.1 h
      exact .inr (.inl ⟨_, rfl, voidOfWindow_keeps (demoteHeldOn_keeps (.refl _) _) _⟩)
    · cases h
  | flush =>
    simp only [Command.event] at h
    split at h
    · obtain ⟨-, ⟨⟩⟩ := Option.ite_none_left_eq_some.1 h
      exact .inl (Event.flushClass_keeps start _)
    · cases h
  | start =>
    simp only [Command.event] at h
    obtain ⟨-, h⟩ := Option.ite_none_left_eq_some.1 h
    obtain ⟨-, ⟨⟩⟩ := Option.ite_none_left_eq_some.1 h
    exact .inr (.inr (.inl ⟨rfl, rfl⟩))
  | stop =>
    simp only [Command.event] at h
    split at h
    · cases h
      refine .inl (Event.drainCheck_keeps (Event.demoteUnpublished_keeps ?_))
      exact setMode_keeps start _
    · cases h
      exact .inl (setMode_keeps (abandonAnnounce_keeps
        (Event.demoteUnpublished_keeps (Event.discardPq_keeps start))) _)
    · cases h
    · cases h
  | _ => cases h

/-- What a management command keeps of the parts that no event changes. -/
theorem Command.event_fixed (h : m.event args s = some e) :
    Fixed s e.toState ∧ e.orig.nextSeq = s.orig.nextSeq := by
  rcases Command.event_cases h with hk | ⟨i, -, hk⟩ | ⟨-, rfl⟩ | ⟨-, t, hk, he, -⟩
  · exact ⟨hk.toFixed, hk.nextSeq⟩
  · exact ⟨⟨hk.resetN, hk.mgmt, hk.mem, hk.pending, hk.moments⟩, hk.nextSeq⟩
  · exact ⟨⟨rfl, rfl, rfl, rfl, rfl⟩, rfl⟩
  · rw [he]
    exact ⟨⟨hk.resetN, hk.mgmt, hk.mem, hk.pending, hk.moments⟩, hk.nextSeq⟩

/-- A written configuration replaces the record of a window that is not enabled (R26, R27). -/
theorem writeWindowEffect_cases (n kind : Byte) (base : BitVec 24) (sizeCode channel cls combine policy : Byte)
    (s : State) :
    (writeWindowEffect n kind base sizeCode channel cls combine policy s).1 = s ∨
    ∃ (i : WinIdx) (w : Window), s.windows[i].enabled = false ∧ w.enabled = false ∧ w.aligned = true ∧
      (writeWindowEffect n kind base sizeCode channel cls combine policy s).1 = s.setWindow i w := by
  by_cases hn : n.toNat < 16
  · let i : WinIdx := ⟨n.toNat, hn⟩
    rw [writeWindowEffect, withIndex_of_lt n s _ i rfl]
    split
    · exact .inl rfl
    next he =>
      simp only [Bool.not_eq_true] at he
      cases hw : configuration kind base sizeCode channel cls combine policy with
      | none => exact .inl rfl
      | some w =>
        have hd : w.enabled = false := by
          unfold configuration at hw
          split at hw
          · cases hw; rfl
          · cases hw
        dsimp only
        split
        next ha => exact .inr ⟨i, w, he, hd, ha, rfl⟩
        next => exact .inl rfl
  · exact .inl (congrArg Prod.fst (withIndex_of_ge n s _ (Nat.not_lt.1 hn)))

/-- A window that is enabled was written, was not enabled, and is in no conflict (R28, R29). -/
theorem enableWindowEffect_cases (n : Byte) (s : State) :
    (enableWindowEffect n s).1 = s ∨
    ∃ i : WinIdx, s.windows[i].enabled = false ∧ s.windows[i].written = true ∧ conflictOf s.windows i = none ∧
      (enableWindowEffect n s).1 = s.setWindow i { s.windows[i] with enabled := true } := by
  by_cases hn : n.toNat < 16
  · let i : WinIdx := ⟨n.toNat, hn⟩
    rw [enableWindowEffect, withIndex_of_lt n s _ i rfl]
    split
    · exact .inl rfl
    next he =>
      simp only [Bool.not_eq_true] at he
      split
      · exact .inl rfl
      next hw =>
        simp only [Bool.not_eq_false] at hw
        cases hc : conflictOf s.windows i with
        | some j => exact .inl rfl
        | none => exact .inr ⟨i, he, hw, hc, rfl⟩
  · exact .inl (congrArg Prod.fst (withIndex_of_ge n s _ (Nat.not_lt.1 hn)))

theorem clearWindowEffect_cases (n : Byte) (s : State) :
    (clearWindowEffect n s).1 = s ∨
    ∃ i : WinIdx, (clearWindowEffect n s).1 =
      s.setWindow i { s.windows[i] with diverged := false, stale := false } := by
  by_cases hn : n.toNat < 16
  · exact .inr ⟨⟨n.toNat, hn⟩, congrArg Prod.fst (clearWindowEffect_of_lt (i := ⟨n.toNat, hn⟩) rfl)⟩
  · exact .inl (congrArg Prod.fst (clearWindowEffect_of_ge (Nat.not_lt.1 hn)))

theorem setEnablesEffect_cases (set : BitVec 16) (s : State) :
    (setEnablesEffect set s).1 = s ∨ ∃ f, (setEnablesEffect set s).1 = s.withAttn { s.attn with enableSet := f } := by
  unfold setEnablesEffect
  split
  · exact .inr ⟨_, rfl⟩
  · exact .inl rfl

theorem ackEventsEffect_cases (set : BitVec 16) (s : State) :
    (ackEventsEffect set s).1 = s ∨ ∃ f, (ackEventsEffect set s).1 = s.withAttn { s.attn with raisedSet := f } := by
  unfold ackEventsEffect
  split
  · exact .inr ⟨_, rfl⟩
  · exact .inl rfl

/-- The changes at once: parameters, window records, the Attention Unit's flags, and the pending removal. -/
theorem Command.direct_cases (m : Command) (args : List Byte) (s : State) :
    m.direct args s = s ∨
    (m = .setParams ∧ s.node.mode = .offline ∧ ∃ p, m.direct args s = s.withNode { s.node with params := p }) ∨
    (m = .writeWindow ∧ ∃ (i : WinIdx) (w : Window), s.windows[i].enabled = false ∧ w.enabled = false ∧
      w.aligned = true ∧ m.direct args s = s.setWindow i w) ∨
    (m = .enableWindow ∧ ∃ i : WinIdx, s.windows[i].enabled = false ∧ s.windows[i].written = true ∧
      conflictOf s.windows i = none ∧ m.direct args s = s.setWindow i { s.windows[i] with enabled := true }) ∨
    (m = .clearWindow ∧ ∃ i : WinIdx,
      m.direct args s = s.setWindow i { s.windows[i] with diverged := false, stale := false }) ∨
    (m = .setEnables ∧ ∃ f, m.direct args s = s.withAttn { s.attn with enableSet := f }) ∨
    (m = .ackEvents ∧ ∃ f, m.direct args s = s.withAttn { s.attn with raisedSet := f }) ∨
    (m = .takeIncident ∧ m.direct args s =
      s.withMgmt { s.mgmt with txn := { s.mgmt.txn with removal := s.attn.queue.head?, dropFlag := false } }) := by
  cases m with
  | setParams =>
    rcases setParamsEffect_cases (arg16 args 0) (arg16 args 2) (arg16 args 5) (argByte args 4) s with h | ⟨hm, h⟩
    · exact .inl h
    · exact .inr (.inl ⟨rfl, hm, _, congrArg Prod.fst h⟩)
  | writeWindow =>
    rcases writeWindowEffect_cases (argByte args 0) (argByte args 1) (argByte args 2 ++ argByte args 3 ++ argByte args 4)
      (argByte args 5) (argByte args 6) (argByte args 7) (argByte args 8) (argByte args 9) s with h | h
    · exact .inl h
    · exact .inr (.inr (.inl ⟨rfl, h⟩))
  | enableWindow =>
    rcases enableWindowEffect_cases (argByte args 0) s with h | h
    · exact .inl h
    · exact .inr (.inr (.inr (.inl ⟨rfl, h⟩)))
  | clearWindow =>
    rcases clearWindowEffect_cases (argByte args 0) s with h | h
    · exact .inl h
    · exact .inr (.inr (.inr (.inr (.inl ⟨rfl, h⟩))))
  | setEnables =>
    rcases setEnablesEffect_cases (arg16 args 0) s with h | h
    · exact .inl h
    · exact .inr (.inr (.inr (.inr (.inr (.inl ⟨rfl, h⟩)))))
  | ackEvents =>
    rcases ackEventsEffect_cases (arg16 args 0) s with h | h
    · exact .inl h
    · exact .inr (.inr (.inr (.inr (.inr (.inr (.inl ⟨rfl, h⟩))))))
  | takeIncident => exact .inr (.inr (.inr (.inr (.inr (.inr (.inr ⟨rfl, rfl⟩))))))
  | _ => exact .inl rfl

/-- A management command is executed in two steps: its effect on the state, and the response (R176). -/
theorem executeCommand_fixed (m : Command) (args : List Byte) (s : State) :
    (executeCommand m args s).resetN = s.resetN ∧ (executeCommand m args s).mem = s.mem ∧
    (executeCommand m args s).pending = s.pending ∧
    ((executeCommand m args s).moments = s.moments ∨
      (executeCommand m args s).moments = momentsAfter s.moments) ∧
    ((executeCommand m args s).orig.nextSeq = s.orig.nextSeq ∨
      (executeCommand m args s).orig.nextSeq = s.orig.nextSeq + 1) := by
  rw [executeCommand_eq]
  simp only [State.withMgmt_resetN, State.withMgmt_mem, State.withMgmt_pending, State.withMgmt_moments,
    State.withMgmt_orig, Command.effect_fst]
  rcases he : m.event args s with _ | e
  · rw [Option.elim_none]
    rcases m.direct_cases args s with h | ⟨-, -, p, h⟩ | ⟨-, i, w, -, -, -, h⟩ | ⟨-, i, -, -, -, h⟩ | ⟨-, i, h⟩ |
      ⟨-, f, h⟩ | ⟨-, f, h⟩ | ⟨-, h⟩
    all_goals
      rw [h]
      exact ⟨rfl, rfl, rfl, .inl rfl, .inl rfl⟩
  · obtain ⟨hk, hn⟩ := Command.event_fixed he
    rw [Option.elim_some, Event.finish_resetN, Event.finish_mem, Event.finish_pending, Event.finish_moments,
      hk.resetN, hk.mem, hk.pending, hk.moments, ← hn]
    exact ⟨rfl, rfl, rfl, .inr rfl, e.finish_nextSeq⟩

end Commands

end Sys2Proof.Machine
end

section
/-! SUPPORT. The laws and rules of the whole machine that need no law to hold before: memory's canonical form, the
Window Table, and which commands alone change what. -/

namespace Sys2Proof.Machine

/-! ## Memory, the moments and the clockwork -/

section Aspects
variable {c : Instr} {s t : State}

/-- The event that begins a run of invalid symbols leaves what stands, but for the causes it commits. -/
theorem runBegins_fixed (s : State) :
    (runBegins s).resetN = s.resetN ∧ (runBegins s).mem = s.mem ∧ (runBegins s).pending = s.pending ∧
    (runBegins s).moments = s.moments ∧ (runBegins s).orig.nextSeq = s.orig.nextSeq ∧
    (runBegins s).node.settings = s.node.settings ∧
    (s.node.level = .isolated → (runBegins s).node.level = .isolated) ∧
    ∀ i : WinIdx, (runBegins s).windows[i].plain = s.windows[i].plain := by
  rcases runBegins_cases s with h | ⟨e, hk, h⟩
  · rw [h]
    exact ⟨rfl, rfl, rfl, rfl, rfl, rfl, id, fun _ => rfl⟩
  · rw [h, Event.commit_resetN, Event.commit_mem, Event.commit_pending, Event.commit_moments, Event.commit_orig,
      Event.commit_node, Event.commit_windows]
    exact ⟨hk.resetN, hk.mem, hk.pending, hk.moments, hk.nextSeq, hk.settings, hk.isolated, hk.plain⟩

/-- Local memory changes at the completion of a write cycle alone (R129). -/
theorem exec_mem (h : exec c s = .next t) :
    t.mem = s.mem ∨ ∃ sd m, c = .memoryCycleCompletion sd ∧ s.arb.cycle = some m ∧ m.dir = .write ∧
      t.mem = s.mem.writeWord m.word m.lanes m.data := by
  cases outcome_of_exec h with
  | event e he =>
    rw [Event.finish_mem, (broughtEvent_keeps he).mem]
    rcases eventBase_cases he with hb | ⟨sd, m, hc, hm, hb⟩ | ⟨-, hb⟩ | ⟨-, -, hb⟩ | ⟨straps, -, -, hb⟩
    · rw [hb]; exact .inl rfl
    · rcases memoryServed_cases m s with hs | ⟨hd, hs⟩
      · rw [hb, hs]; exact .inl rfl
      · exact .inr ⟨sd, m, hc, hm, hd, by rw [hb, hs]; rfl⟩
    · rw [hb]; exact .inl (runBegins_fixed s).2.1
    · rw [hb]; exact .inl rfl
    · rw [hb]; exact .inl rfl
  | executed m args => exact .inl (executeCommand_fixed m args _).2.1
  | _ => exact .inl rfl

/-- No command changes the queue of waiting commands, and one takes at most its own event off the moments to come. -/
theorem exec_pending_moments (h : exec c s = .next t) :
    t.pending = s.pending ∧ (t.moments = s.moments ∨ t.moments = momentsAfter s.moments) := by
  cases outcome_of_exec h with
  | event e he =>
    have hk := broughtEvent_keeps he
    rw [Event.finish_pending, Event.finish_moments, hk.pending, hk.moments]
    rcases eventBase_cases he with hb | ⟨sd, m, -, -, hb⟩ | ⟨-, hb⟩ | ⟨-, -, hb⟩ | ⟨straps, -, -, hb⟩
    · rw [hb]; exact ⟨rfl, .inr rfl⟩
    · rcases memoryServed_cases m s with hs | ⟨-, hs⟩
      · rw [hb, hs]; exact ⟨rfl, .inr rfl⟩
      · rw [hb, hs]; exact ⟨rfl, .inr rfl⟩
    · obtain ⟨-, -, hp, hm, -⟩ := runBegins_fixed s
      rw [hb, hp, hm]; exact ⟨rfl, .inr rfl⟩
    · rw [hb]; exact ⟨rfl, .inr rfl⟩
    · rw [hb]; exact ⟨rfl, .inr rfl⟩
  | executed m args =>
    obtain ⟨-, -, hp, hm, -⟩ := executeCommand_fixed m args (setMclk true s)
    exact ⟨hp, hm⟩
  | _ => exact ⟨rfl, .inl rfl⟩

/-- RESET_N falls at the hard reset and rises at its release alone (R157, R158). -/
theorem exec_resetN (h : exec c s = .next t) : t.resetN = s.resetN ∨
    (c = .hardReset ∧ s.resetN = true ∧ t.resetN = false) ∨
    ∃ straps, c = .resetRelease straps ∧ s.resetN = false ∧ t.resetN = true := by
  cases outcome_of_exec h with
  | event e he =>
    rw [Event.finish_resetN, (broughtEvent_keeps he).resetN]
    rcases eventBase_cases he with hb | ⟨sd, m, -, -, hb⟩ | ⟨-, hb⟩ | ⟨hc, hr, hb⟩ | ⟨straps, hc, hr, hb⟩
    · rw [hb]; exact .inl rfl
    · rcases memoryServed_cases m s with hs | ⟨-, hs⟩
      · rw [hb, hs]; exact .inl rfl
      · rw [hb, hs]; exact .inl rfl
    · rw [hb]; exact .inl (runBegins_fixed s).1
    · rw [hb]; exact .inr (.inl ⟨hc, hr, rfl⟩)
    · rw [hb]; exact .inr (.inr ⟨straps, hc, hr, rfl⟩)
  | executed m args => exact .inl (executeCommand_fixed m args _).1
  | _ => exact .inl rfl

/-- next_seq rises by one at a departure and is set to 0 at the hard reset (R79, R81, R100). -/
theorem exec_nextSeq (h : exec c s = .next t) :
    t.orig.nextSeq = s.orig.nextSeq ∨ t.orig.nextSeq = s.orig.nextSeq + 1 ∨
    (c = .hardReset ∧ t.orig.nextSeq = 0) := by
  cases outcome_of_exec h with
  | event e he =>
    have hk := broughtEvent_keeps he
    have kept (hb : (eventBase c s).orig.nextSeq = s.orig.nextSeq) :
        e.finish.orig.nextSeq = s.orig.nextSeq ∨ e.finish.orig.nextSeq = s.orig.nextSeq + 1 ∨
        (c = .hardReset ∧ e.finish.orig.nextSeq = 0) := by
      rw [← hb, ← hk.nextSeq]
      exact e.finish_nextSeq.imp_right .inl
    rcases eventBase_cases he with hb | ⟨sd, m, -, -, hb⟩ | ⟨-, hb⟩ | ⟨rfl, hr, hb⟩ | ⟨straps, -, -, hb⟩
    · exact kept (by rw [hb])
    · rcases memoryServed_cases m s with hs | ⟨-, hs⟩
      · exact kept (by rw [hb, hs]; rfl)
      · exact kept (by rw [hb, hs]; rfl)
    · exact kept (by rw [hb]; exact (runBegins_fixed s).2.2.2.2.1)
    · obtain ⟨-, ⟨⟩⟩ := Option.ite_none_right_eq_some.1 he
      exact .inr (.inr ⟨rfl, by rw [Event.finish_orig_of_busy _ (.inr rfl)]; rfl⟩)
    · exact kept (by rw [hb]; rfl)
  | executed m args =>
    obtain ⟨-, -, -, -, hn⟩ := executeCommand_fixed m args (setMclk true s)
    exact hn.imp_right .inl
  | _ => exact .inl rfl

/-! ## The settings of Node Control and the levels -/

/-- The state of the effect of a management command, where neither its event nor it changes the node. -/
theorem executeCommand_node (m : Command) (args : List Byte) (s : State) :
    (executeCommand m args s).node.nodeId = s.node.nodeId ∧ (executeCommand m args s).node.timebase = s.node.timebase ∧
    (m ≠ .softReset → m ≠ .start → s.node.level = .isolated →
      (executeCommand m args s).node.level = .isolated) := by
  rw [executeCommand_eq, State.withMgmt_node, Command.effect_fst]
  rcases he : m.event args s with _ | e
  · rw [Option.elim_none]
    rcases m.direct_cases args s with h | ⟨-, -, p, h⟩ | ⟨-, i, w, -, -, -, h⟩ | ⟨-, i, -, -, -, h⟩ | ⟨-, i, h⟩ |
      ⟨-, f, h⟩ | ⟨-, f, h⟩ | ⟨-, h⟩
    all_goals
      rw [h]
      exact ⟨rfl, rfl, fun _ _ hl => hl⟩
  · rw [Option.elim_some, Event.finish_node]
    have kept (hs : e.node.settings = s.node.settings) :
        e.node.nodeId = s.node.nodeId ∧ e.node.timebase = s.node.timebase :=
      ⟨congrArg (fun x => x.1) hs, congrArg (fun x => x.2.2) hs⟩
    rcases Command.event_cases he with hk | ⟨i, -, hk⟩ | ⟨hm, rfl⟩ | ⟨hm, u, hk, hu, -⟩
    · exact ⟨(kept hk.settings).1, (kept hk.settings).2, fun _ _ => hk.isolated⟩
    · exact ⟨(kept hk.settings).1, (kept hk.settings).2, fun _ _ => hk.isolated⟩
    · exact ⟨rfl, rfl, fun _ h => absurd hm h⟩
    · have hs : e.node.settings = s.node.settings := by rw [hu]; exact hk.settings
      exact ⟨(kept hs).1, (kept hs).2, fun h => absurd hm h⟩

/-- The node ID is sampled at the release of RESET_N, and the timebase advances by one or is reset (R155, R157). -/
theorem exec_settings (h : exec c s = .next t) :
    (t.node.nodeId = s.node.nodeId ∨ (c = .resetRelease t.node.nodeId ∧ s.resetN = false)) ∧
    (t.node.timebase = s.node.timebase ∨
      (c = .timebaseAdvance ∧ s.resetN = true ∧ t.node.timebase = s.node.timebase + 1) ∨
      (c = .hardReset ∧ s.resetN = true ∧ t.node.timebase = 0)) := by
  cases outcome_of_exec h with
  | event e he =>
    have hk := (broughtEvent_keeps he).settings
    have hid : e.node.nodeId = (eventBase c s).node.nodeId := congrArg (fun x => x.1) hk
    have htime : e.node.timebase = (eventBase c s).node.timebase := congrArg (fun x => x.2.2) hk
    rw [Event.finish_node, hid, htime]
    rcases eventBase_cases he with hb | ⟨sd, m, -, -, hb⟩ | ⟨-, hb⟩ | ⟨hc, hr, hb⟩ | ⟨straps, hc, hr, hb⟩
    · rw [hb]; exact ⟨.inl rfl, .inl rfl⟩
    · rcases memoryServed_cases m s with hs | ⟨-, hs⟩
      · rw [hb, hs]; exact ⟨.inl rfl, .inl rfl⟩
      · rw [hb, hs]; exact ⟨.inl rfl, .inl rfl⟩
    · obtain ⟨-, -, -, -, -, hn, -⟩ := runBegins_fixed s
      rw [hb]
      exact ⟨.inl (congrArg (fun x => x.1) hn), .inl (congrArg (fun x => x.2.2) hn)⟩
    · rw [hb]; exact ⟨.inl rfl, .inr (.inr ⟨hc, hr, rfl⟩)⟩
    · rw [hb]; exact ⟨.inr ⟨hc, hr⟩, .inl rfl⟩
  | executed m args =>
    obtain ⟨hi, ht, -⟩ := executeCommand_node m args (setMclk true s)
    exact ⟨.inl hi, .inl ht⟩
  | advanced hc hr => exact ⟨.inl rfl, .inr (.inl ⟨hc, hr, rfl⟩)⟩
  | _ => exact ⟨.inl rfl, .inl rfl⟩

/-- After an execution the port is RESPONDING to the command (R176). -/
theorem executes_of_executed (m : Command) (args : List Byte) (hp : s.mgmt.txn.port = .receiving) :
    Executes s (executeCommand m args (setMclk true s)) m := ⟨hp, rfl, rfl⟩

/-- A node leaves ISOLATED by START, by SOFT_RESET and by the hard reset alone (R154). -/
theorem exec_isolated (h : exec c s = .next t) (hc : c ≠ .hardReset) (hsoft : ¬Executes s t .softReset)
    (hstart : ¬Executes s t .start) (hl : s.node.level = .isolated) : t.node.level = .isolated := by
  cases outcome_of_exec h with
  | event e he =>
    rw [Event.finish_node]
    refine (broughtEvent_keeps he).isolated ?_
    rcases eventBase_cases he with hb | ⟨sd, m, -, -, hb⟩ | ⟨-, hb⟩ | ⟨hh, -, -⟩ | ⟨straps, -, -, hb⟩
    · rw [hb]; exact hl
    · rcases memoryServed_cases m s with hs | ⟨-, hs⟩
      · rw [hb, hs]; exact hl
      · rw [hb, hs]; exact hl
    · obtain ⟨-, -, -, -, -, -, hi, -⟩ := runBegins_fixed s
      rw [hb]; exact hi hl
    · exact absurd hh hc
    · rw [hb]; exact hl
  | executed m args hr hp =>
    have hm := executes_of_executed (s := s) m args hp
    obtain ⟨-, -, hi⟩ := executeCommand_node m args (setMclk true s)
    exact hi (fun hx => hsoft (hx ▸ hm)) (fun hx => hstart (hx ▸ hm)) hl
  | _ => exact hl

/-! ## The Attention Unit's flags -/

/-- The enable flags stand and no pending flag is lost. -/
def FlagsGrow (s t : State) : Prop :=
  t.attn.enableSet = s.attn.enableSet ∧
    ∀ k : Fin 14, s.attn.raisedSet.getLsbD k.val = true → t.attn.raisedSet.getLsbD k.val = true

theorem FlagsGrow.trans {s t u : State} (h : FlagsGrow s t) (k : FlagsGrow t u) : FlagsGrow s u :=
  ⟨k.1.trans h.1, fun i hi => k.2 i (h.2 i hi)⟩

theorem flagsGrow_of_eq {s t : State} (h : t.attn = s.attn) : FlagsGrow s t := by
  rw [FlagsGrow, h]
  exact ⟨rfl, fun _ => id⟩

theorem Event.commit_flagsGrow (e : Event) : FlagsGrow e.toState e.commit :=
  e.commit_induct (motive := FlagsGrow e.toState) (flagsGrow_of_eq rfl) fun u o hu =>
    hu.trans ⟨appendIncident_enableSet u o, fun k hk => by simp [appendIncident_raisedSet, hk]⟩

theorem Event.finish_flagsGrow (e : Event) : FlagsGrow e.toState e.finish :=
  e.commit_flagsGrow.trans (flagsGrow_of_eq e.finish_attn)

theorem executeCommand_flags (m : Command) (args : List Byte) (s : State) (hsoft : m ≠ .softReset) :
    (m ≠ .setEnables → (executeCommand m args s).attn.enableSet = s.attn.enableSet) ∧
    (m ≠ .ackEvents → ∀ k : Fin 14, s.attn.raisedSet.getLsbD k.val = true →
      (executeCommand m args s).attn.raisedSet.getLsbD k.val = true) := by
  rw [executeCommand_eq, State.withMgmt_attn, Command.effect_fst]
  rcases he : m.event args s with _ | e
  · rw [Option.elim_none]
    rcases m.direct_cases args s with h | ⟨-, -, p, h⟩ | ⟨-, i, w, -, -, -, h⟩ | ⟨-, i, -, -, -, h⟩ | ⟨-, i, h⟩ |
      ⟨hm, f, h⟩ | ⟨hm, f, h⟩ | ⟨-, h⟩
    case inr.inr.inr.inr.inr.inl =>
      rw [h]
      exact ⟨fun hn => absurd hm hn, fun _ _ hk => hk⟩
    case inr.inr.inr.inr.inr.inr.inl =>
      rw [h]
      exact ⟨fun _ => rfl, fun hn => absurd hm hn⟩
    all_goals
      rw [h]
      exact ⟨fun _ => rfl, fun _ _ hk => hk⟩
  · rw [Option.elim_some]
    have grow (ha : e.attn = s.attn) : FlagsGrow s e.finish := (flagsGrow_of_eq ha).trans e.finish_flagsGrow
    have hg : FlagsGrow s e.finish := by
      rcases Command.event_cases he with hk | ⟨i, -, hk⟩ | ⟨-, rfl⟩ | ⟨hm, -⟩
      · exact grow hk.attn
      · exact grow hk.attn
      · exact grow rfl
      · exact absurd hm hsoft
    exact ⟨fun _ => hg.1, fun _ => hg.2⟩

/-- Enable flags change and pending flags are cleared by the Management Port and the hard reset alone (R161). -/
theorem exec_flags (h : exec c s = .next t) (hc : c ≠ .hardReset) (hsoft : ¬Executes s t .softReset) :
    (¬Executes s t .setEnables → t.attn.enableSet = s.attn.enableSet) ∧
    (¬Executes s t .ackEvents → ∀ k : Fin 14, s.attn.raisedSet.getLsbD k.val = true →
      t.attn.raisedSet.getLsbD k.val = true) := by
  have grown (hg : FlagsGrow s t) : (¬Executes s t .setEnables → t.attn.enableSet = s.attn.enableSet) ∧
      (¬Executes s t .ackEvents → ∀ k : Fin 14, s.attn.raisedSet.getLsbD k.val = true →
        t.attn.raisedSet.getLsbD k.val = true) := ⟨fun _ => hg.1, fun _ => hg.2⟩
  cases outcome_of_exec h with
  | event e he =>
    refine grown (FlagsGrow.trans ?_ e.finish_flagsGrow)
    refine FlagsGrow.trans ?_ (flagsGrow_of_eq (broughtEvent_keeps he).attn)
    rcases eventBase_cases he with hb | ⟨sd, m, -, -, hb⟩ | ⟨-, hb⟩ | ⟨hh, -, -⟩ | ⟨straps, -, -, hb⟩
    · rw [hb]; exact flagsGrow_of_eq rfl
    · rcases memoryServed_cases m s with hs | ⟨-, hs⟩
      · rw [hb, hs]; exact flagsGrow_of_eq rfl
      · rw [hb, hs]; exact flagsGrow_of_eq rfl
    · rw [hb]
      rcases runBegins_cases s with hr | ⟨f, hk, hr⟩
      · rw [hr]; exact flagsGrow_of_eq rfl
      · rw [hr]; exact (flagsGrow_of_eq hk.attn).trans f.commit_flagsGrow
    · exact absurd hh hc
    · rw [hb]; exact flagsGrow_of_eq rfl
  | executed m args hr hp =>
    have hm := executes_of_executed (s := s) m args hp
    obtain ⟨hen, hra⟩ := executeCommand_flags m args (setMclk true s) fun hx => hsoft (hx ▸ hm)
    exact ⟨fun hn => hen fun hx => hn (hx ▸ hm), fun hn => hra fun hx => hn (hx ▸ hm)⟩
  | removed => exact grown ⟨rfl, fun _ hk => hk⟩
  | _ => exact grown (flagsGrow_of_eq rfl)

/-! ## The Window Table -/

theorem setWindow_getElem (s : State) (i j : WinIdx) (w : Window) :
    (s.setWindow i w).windows[j] = if i = j then w else s.windows[j] := by
  by_cases hij : i = j
  · subst hij; simp [State.setWindow]
  · have hn : i.val ≠ j.val := fun h => hij (Fin.ext h)
    simp [State.setWindow, hij, Vector.getElem_set_ne _ _ hn]

/-- A window's configuration: its record with the enabled field, the flags and the update count set aside (R18). -/
def Window.configured (w : Window) : Window := { w.plain with enabled := false }

/-- What a management command makes of the configurations: WRITE_WINDOW replaces one, and of the others only
ENABLE_WINDOW and DISABLE_WINDOW change an enabled field. -/
theorem executeCommand_windows (m : Command) (args : List Byte) (s : State) (hw : m ≠ .writeWindow) (j : WinIdx) :
    (executeCommand m args s).windows[j].configured = s.windows[j].configured ∧
    (m ≠ .enableWindow → m ≠ .disableWindow → (executeCommand m args s).windows[j].plain = s.windows[j].plain) := by
  have plain {t : State} (h : t.windows[j].plain = s.windows[j].plain) :
      t.windows[j].configured = s.windows[j].configured ∧
      (m ≠ .enableWindow → m ≠ .disableWindow → t.windows[j].plain = s.windows[j].plain) :=
    ⟨congrArg (fun w : Window => { w with enabled := false }) h, fun _ _ => h⟩
  rw [executeCommand_eq, State.withMgmt_windows, Command.effect_fst]
  rcases he : m.event args s with _ | e
  · rw [Option.elim_none]
    rcases m.direct_cases args s with h | ⟨-, -, p, h⟩ | ⟨hm, -⟩ | ⟨hm, i, -, -, -, h⟩ | ⟨-, i, h⟩ |
      ⟨-, f, h⟩ | ⟨-, f, h⟩ | ⟨-, h⟩
    · rw [h]; exact plain rfl
    · rw [h]; exact plain rfl
    · exact absurd hm hw
    · rw [h, setWindow_getElem]
      split
      next hij => subst hij; exact ⟨rfl, fun hn => absurd hm hn⟩
      next => exact plain rfl
    · rw [h, setWindow_getElem]
      split
      next hij => subst hij; exact plain (t := s) rfl
      next => exact plain rfl
    · rw [h]; exact plain rfl
    · rw [h]; exact plain rfl
    · rw [h]; exact plain rfl
  · rw [Option.elim_some]
    rcases Command.event_cases he with hk | ⟨i, hm, hk⟩ | ⟨-, rfl⟩ | ⟨-, u, hk, hu, -⟩
    · exact plain ((e.finish_plain j).trans (hk.plain j))
    · have hp := (e.finish_plain j).trans (hk.plain j)
      refine ⟨?_, fun _ hn => absurd hm hn⟩
      have hd : (disableRecord i s).windows[j].configured = s.windows[j].configured := by
        change (s.setWindow i { s.windows[i] with enabled := false }).windows[j].configured = _
        rw [setWindow_getElem]
        split
        next hij => subst hij; rfl
        next => rfl
      exact (congrArg (fun w : Window => { w with enabled := false }) hp).trans hd
    · exact plain (Event.finish_plain _ j)
    · refine plain ((e.finish_plain j).trans ?_)
      rw [hu]
      exact hk.plain j

/-- A window's configuration changes by WRITE_WINDOW and the hard reset alone (R26, R35). -/
theorem exec_configured (h : exec c s = .next t) (hc : c ≠ .hardReset) (hw : ¬Executes s t .writeWindow) (j : WinIdx) :
    t.windows[j].configured = s.windows[j].configured ∧
    (¬Executes s t .enableWindow → ¬Executes s t .disableWindow → t.windows[j].plain = s.windows[j].plain) := by
  have plain (h : t.windows[j].plain = s.windows[j].plain) :
      t.windows[j].configured = s.windows[j].configured ∧
      (¬Executes s t .enableWindow → ¬Executes s t .disableWindow → t.windows[j].plain = s.windows[j].plain) :=
    ⟨congrArg (fun w : Window => { w with enabled := false }) h, fun _ _ => h⟩
  cases outcome_of_exec h with
  | event e he =>
    refine plain ((e.finish_plain j).trans (((broughtEvent_keeps he).plain j).trans ?_))
    rcases eventBase_cases he with hb | ⟨sd, m, -, -, hb⟩ | ⟨-, hb⟩ | ⟨hh, -, -⟩ | ⟨straps, -, -, hb⟩
    · rw [hb]
    · rcases memoryServed_cases m s with hs | ⟨-, hs⟩
      · rw [hb, hs]; rfl
      · rw [hb, hs]; rfl
    · obtain ⟨-, -, -, -, -, -, -, hp⟩ := runBegins_fixed s
      rw [hb]; exact hp j
    · exact absurd hh hc
    · rw [hb]; rfl
  | executed m args hr hp =>
    have hm := executes_of_executed (s := s) m args hp
    obtain ⟨hcon, hpl⟩ := executeCommand_windows m args (setMclk true s) (fun hx => hw (hx ▸ hm)) j
    exact ⟨hcon, fun h1 h2 => hpl (fun hx => h1 (hx ▸ hm)) fun hx => h2 (hx ▸ hm)⟩
  | _ => exact plain rfl

end Aspects

/-! ## The law of the Window Table (R18, R28) -/

/-- The law of the Window Table, of the records as they are given. -/
def TableLaw (f : WinIdx → Window) : Prop :=
  ∀ i : WinIdx,
    ((f i).written = true → (f i).base.toNat % 2 ^ (f i).sizeCode.toNat = 0) ∧
    ((f i).enabled = true →
      (f i).written = true ∧
      ∀ j : WinIdx, (f j).enabled = true → i ≠ j →
        (f i).channel ≠ (f j).channel ∧ ((f i).kind = .owned → (f j).kind = .mirror → (f i).apart (f j)))

/-- The law is about configurations and enabled fields, not about flags and counts. -/
theorem windowLaw_iff (s : State) : WindowLaw s ↔ TableLaw fun i => s.windows[i].plain := Iff.rfl

theorem WindowLaw.of_plain {s t : State} (h : ∀ i : WinIdx, t.windows[i].plain = s.windows[i].plain)
    (hs : WindowLaw s) : WindowLaw t := by
  rw [windowLaw_iff] at hs ⊢
  rwa [funext h]

/-- A record that is not enabled and aligned may replace any other. -/
theorem WindowLaw.set_disabled {s : State} (hs : WindowLaw s) {i : WinIdx} {w : Window} (he : w.enabled = false)
    (ha : w.written = true → w.base.toNat % 2 ^ w.sizeCode.toNat = 0) : WindowLaw (s.setWindow i w) := by
  intro j
  simp only [setWindow_getElem]
  refine ⟨?_, fun hj => ?_⟩
  · split
    · exact ha
    · exact (hs j).1
  · split at hj
    · simp [he] at hj
    next hij =>
      obtain ⟨hw, hp⟩ := (hs j).2 hj
      simp only [hij, if_false]
      refine ⟨hw, fun k hk hjk => ?_⟩
      split at hk
      · simp [he] at hk
      next hik =>
        simp only [hik, if_false]
        exact hp k hk hjk

theorem Window.apart_symm {v w : Window} (h : v.apart w) : w.apart v := h.symm

/-- Ranges that do not overlap stand apart (R19). -/
theorem Window.overlaps_iff (v w : Window) : v.overlaps w = true ↔ ¬v.apart w := by
  rw [Window.overlaps, Bool.and_eq_true, decide_eq_true_eq, decide_eq_true_eq, Window.size, Window.size, not_or,
    Nat.not_le, Nat.not_le, and_comm]

/-- A window in conflict with none of the enabled ones may be enabled (R28). -/
theorem WindowLaw.set_enabled {s : State} (hs : WindowLaw s) {i : WinIdx} (hw : s.windows[i].written = true)
    (hc : ∀ j : WinIdx, s.windows[j].enabled = true → s.windows[j].conflictsWith s.windows[i] = false) :
    WindowLaw (s.setWindow i { s.windows[i] with enabled := true }) := by
  have free (j : WinIdx) (hj : s.windows[j].enabled = true) : s.windows[j].channel ≠ s.windows[i].channel ∧
      (s.windows[j].kind ≠ s.windows[i].kind → s.windows[j].apart s.windows[i]) := by
    have h := hc j hj
    simp only [Window.conflictsWith, Bool.or_eq_false_iff, Bool.and_eq_false_iff, beq_eq_false_iff_ne,
      bne_eq_false_iff_eq] at h
    obtain ⟨hch, hk⟩ := h
    refine ⟨hch, fun hne => ?_⟩
    rcases hk with hk | hk
    · exact absurd hk hne
    · exact by_contra fun ha => absurd ((Window.overlaps_iff _ _).2 ha) (ne_true_of_eq_false hk)
  intro j
  simp only [setWindow_getElem]
  by_cases hij : i = j
  · subst hij
    simp only [if_true]
    refine ⟨(hs i).1, fun _ => ⟨hw, fun k hk hik => ?_⟩⟩
    simp only [hik, if_false] at hk ⊢
    obtain ⟨hch, hap⟩ := free k hk
    exact ⟨fun h => hch h.symm, fun ho hm => Window.apart_symm (hap (by rw [ho, hm]; decide))⟩
  · simp only [hij, if_false]
    refine ⟨(hs j).1, fun hj => ?_⟩
    obtain ⟨hwj, hp⟩ := (hs j).2 hj
    refine ⟨hwj, fun k hk hjk => ?_⟩
    by_cases hik : i = k
    · subst hik
      obtain ⟨hch, hap⟩ := free j hj
      simp only [if_true]
      exact ⟨hch, fun ho hm => hap (by rw [ho]; change WindowKind.owned ≠ s.windows[i].kind; rw [hm]; decide)⟩
    · simp only [hik, if_false] at hk ⊢
      exact hp k hk hjk

theorem mem_allWindows : ∀ i : WinIdx, i ∈ allWindows := by decide

theorem not_conflicts_of_conflictOf {ws : Vector Window 16} {i : WinIdx} (h : conflictOf ws i = none) (j : WinIdx)
    (hj : ws[j].enabled = true) : ws[j].conflictsWith ws[i] = false := by
  have hn := List.find?_eq_none.1 h j (mem_allWindows j)
  rw [Bool.and_eq_true, not_and, Bool.not_eq_true] at hn
  exact hn hj

theorem windowLaw_reset {s : State} (h : s.windows = Vector.replicate 16 Window.reset) : WindowLaw s := by
  have hw (i : WinIdx) : s.windows[i] = Window.reset := by simp [h]
  intro i
  rw [hw i]
  exact ⟨fun _ => rfl, fun he => by cases he⟩

theorem executeCommand_windowLaw (m : Command) (args : List Byte) {s : State} (h : WindowLaw s) :
    WindowLaw (executeCommand m args s) := by
  have hw : (executeCommand m args s).windows = (m.effect args s).1.windows := rfl
  suffices hl : WindowLaw (m.effect args s).1 by
    exact WindowLaw.of_plain (fun i => by rw [hw]) hl
  rw [Command.effect_fst]
  rcases he : m.event args s with _ | e
  · rw [Option.elim_none]
    rcases m.direct_cases args s with hd | ⟨-, -, p, hd⟩ | ⟨-, i, w, -, hdis, ha, hd⟩ | ⟨-, i, -, hwr, hcon, hd⟩ |
      ⟨-, i, hd⟩ | ⟨-, f, hd⟩ | ⟨-, f, hd⟩ | ⟨-, hd⟩
    · rw [hd]; exact h
    · rw [hd]; exact h
    · rw [hd]
      exact h.set_disabled hdis fun _ => by simpa [Window.aligned, Window.size] using ha
    · rw [hd]
      exact h.set_enabled hwr fun j hj => not_conflicts_of_conflictOf hcon j hj
    · rw [hd]
      have hk : Keeps s (s.setWindow i { s.windows[i] with diverged := false, stale := false }) :=
        (Keeps.refl s).setWindow rfl
      exact WindowLaw.of_plain hk.plain h
    · rw [hd]; exact h
    · rw [hd]; exact h
    · rw [hd]; exact h
  · rw [Option.elim_some]
    refine WindowLaw.of_plain e.finish_plain ?_
    rcases Command.event_cases he with hk | ⟨i, -, hk⟩ | ⟨-, rfl⟩ | ⟨-, u, hk, hu, -⟩
    · exact WindowLaw.of_plain hk.plain h
    · exact WindowLaw.of_plain hk.plain (h.set_disabled (w := { s.windows[i] with enabled := false }) rfl (h i).1)
    · exact h
    · rw [hu]
      exact WindowLaw.of_plain hk.plain h

theorem exec_windowLaw {c : Instr} {s t : State} (he : exec c s = .next t) (h : WindowLaw s) : WindowLaw t := by
  cases outcome_of_exec he with
  | event e hb =>
    refine WindowLaw.of_plain e.finish_plain (WindowLaw.of_plain (broughtEvent_keeps hb).plain ?_)
    rcases eventBase_cases hb with hb | ⟨sd, m, -, -, hb⟩ | ⟨-, hb⟩ | ⟨-, -, hb⟩ | ⟨straps, -, -, hb⟩
    · rw [hb]; exact h
    · rcases memoryServed_cases m s with hs | ⟨-, hs⟩
      · rw [hb, hs]; exact h
      · rw [hb, hs]; exact h
    · obtain ⟨-, -, -, -, -, -, -, hp⟩ := runBegins_fixed s
      rw [hb]; exact WindowLaw.of_plain hp h
    · rw [hb]; exact windowLaw_reset rfl
    · rw [hb]; exact h
  | executed m args => exact executeCommand_windowLaw m args (s := setMclk true s) h
  | _ => exact h

theorem exec_memoryLaw {c : Instr} {s t : State} (he : exec c s = .next t) (h : MemoryLaw s) : MemoryLaw t := by
  rcases exec_mem he with hm | ⟨sd, m, -, -, -, hm⟩
  · rw [MemoryLaw, hm]; exact h
  · rw [MemoryLaw, hm]; exact Memory.wf_writeWord _ _ _ _ h

/-- A step leaves the state, or runs a command in the state with the queue's rest. -/
theorem step_cases {s t : State} (h : step s = .next t) :
    t = s ∨ ∃ c rest, s.pending = c :: rest ∧ exec c (s.withPending rest) = .next t := by
  unfold step at h
  split at h
  · cases h; exact .inl rfl
  next c rest hp => exact .inr ⟨c, rest, hp, h⟩

/-- Settles O56, from what every command makes of memory and of the window configurations. -/
theorem windowTableLawIsKept : Obligations.WindowTableLawIsKept := by
  intro s t h
  rcases step_cases h with rfl | ⟨c, rest, -, he⟩
  · exact ⟨id, id⟩
  · exact ⟨exec_memoryLaw (s := s.withPending rest) he, exec_windowLaw (s := s.withPending rest) he⟩

/-! ## Which commands change what -/

/-- A byte that a write cycle changes is one of its enabled lanes. -/
theorem Memory.lane_of_readByte_writeWord_ne {m : Memory} {w : WordAddr} {lanes : Lanes} {data : Word} {a : Nat}
    (h : (m.writeWord w lanes data).readByte a ≠ m.readByte a) :
    ∃ lane : Fin 4, lanes.getLsbD lane.val = true ∧ a = 4 * w.toNat + lane.val := by
  have lane (m : Memory) (k : Nat) (hk : (m.writeLane w lanes data k).readByte a ≠ m.readByte a) :
      lanes.getLsbD k = true ∧ a = 4 * w.toNat + k := by
    unfold Memory.writeLane at hk
    split at hk
    next hl => exact ⟨hl, by_contra fun ha => hk (Memory.readByte_writeByte_ne _ _ ha)⟩
    next => exact absurd rfl hk
  by_contra hn
  push Not at hn
  have kept (m : Memory) (k : Fin 4) : (m.writeLane w lanes data k.val).readByte a = m.readByte a :=
    by_contra fun hk => hn k (lane m k.val hk).1 (lane m k.val hk).2
  exact h (((kept _ 3).trans (kept _ 2)).trans ((kept _ 1).trans (kept _ 0)))

/-- Settles O59, aspect by aspect along the outcomes of a command. -/
theorem onlyTheseCommandsChangeThese : Obligations.OnlyTheseCommandsChangeThese := by
  intro c s t h
  obtain ⟨hid, htime⟩ := exec_settings h
  obtain ⟨hpend, hmom⟩ := exec_pending_moments h
  refine ⟨fun a ha => ?_, fun hn => hid.resolve_left hn, fun hn => htime.resolve_left hn, fun hn => ?_, fun hn => ?_,
    hpend, ?_, fun hc hw i => ?_, fun hc hsoft => ?_⟩
  · rcases exec_mem h with hm | ⟨sd, m, hc, hcyc, hd, hm⟩
    · exact absurd (by rw [hm]) ha
    · rw [hm] at ha
      obtain ⟨lane, hl, hal⟩ := Memory.lane_of_readByte_writeWord_ne ha
      exact ⟨⟨sd, hc⟩, m, hcyc, hd, lane, hl, hal⟩
  · rcases exec_resetN h with hr | ⟨hc, -⟩ | ⟨straps, hc, -⟩
    · exact absurd hr hn
    · exact .inl hc
    · exact .inr ⟨straps, hc⟩
  · exact (exec_nextSeq h).resolve_left hn
  · rcases hmom with hm | hm
    · exact .inl hm
    · rcases hs : s.moments with _ | ⟨_ | k, later⟩
      · exact .inl (by rw [hm, hs]; rfl)
      · exact .inr ⟨0, later, rfl, by rw [hm, hs]; rfl⟩
      · exact .inr ⟨k + 1, later, rfl, by rw [hm, hs]; rfl⟩
  · obtain ⟨hcon, hpl⟩ := exec_configured h hc hw i
    exact ⟨(congrArg Window.kind hcon :), (congrArg Window.base hcon :), (congrArg Window.sizeCode hcon :),
      (congrArg Window.channel hcon :), (congrArg Window.cls hcon :), (congrArg Window.combine hcon :),
      (congrArg Window.policy hcon :), fun h1 h2 => (congrArg Window.enabled (hpl h1 h2) :)⟩
  · obtain ⟨hen, hra⟩ := exec_flags h hc hsoft
    exact ⟨hen, hra, exec_isolated h hc hsoft⟩

end Sys2Proof.Machine
end

section
/-! SUPPORT. One lemma for each field that an operation of an event leaves as it is, and what the operations on queues
make of the fields they change: later proofs rewrite with these. -/

namespace Sys2Proof.Machine

section Frames
variable (s : State) (e : Event)

theorem Event.demoteUnpublished_of_none (h : e.host.hold = .publishHold) (hw : heldWindow e.toState = none) :
    e.demoteUnpublished = e.on (endPublishHold .unpublished none) := by
  simp [Event.demoteUnpublished, h, hw]

theorem Event.demoteUnpublished_of_window {i : WinIdx} (h : e.host.hold = .publishHold)
    (hw : heldWindow e.toState = some i) :
    e.demoteUnpublished = (e.on (endPublishHold .unpublished (some i))).requestDiverged i := by
  simp [Event.demoteUnpublished, h, hw]

/-- A demotion changes the Host Path, the held request and the window asked. -/
theorem Event.demoteUnpublished_eq :
    ∃ h q ws, e.demoteUnpublished.toState = ((e.toState.withHost h).withPq q).withWindows ws := by
  by_cases h : e.host.hold = .publishHold
  · cases hw : heldWindow e.toState with
    | none => 
      rw [e.demoteUnpublished_of_none h hw]
      exact ⟨(endPublishHold .unpublished none e.toState).host, (endPublishHold .unpublished none e.toState).pq,
        e.windows, rfl⟩
    | some i =>
      obtain ⟨ws, hs⟩ := (e.on (endPublishHold .unpublished (some i))).requestDiverged_toState i
      rw [e.demoteUnpublished_of_window h hw]
      exact ⟨_, _, ws, hs⟩
  · rw [e.demoteUnpublished_of_ne h]
    exact ⟨e.host, e.pq, e.windows, rfl⟩

/-! ### Window-flag requests -/

@[simp] theorem Event.requestDiverged_resetN (i : WinIdx) : (e.requestDiverged i).resetN = e.resetN := by
  obtain ⟨ws, h⟩ := e.requestDiverged_toState i; rw [h, State.withWindows_resetN]
@[simp] theorem Event.requestDiverged_host (i : WinIdx) : (e.requestDiverged i).host = e.host := by
  obtain ⟨ws, h⟩ := e.requestDiverged_toState i; rw [h, State.withWindows_host]
@[simp] theorem Event.requestDiverged_pq (i : WinIdx) : (e.requestDiverged i).pq = e.pq := by
  obtain ⟨ws, h⟩ := e.requestDiverged_toState i; rw [h, State.withWindows_pq]
@[simp] theorem Event.requestDiverged_orig (i : WinIdx) : (e.requestDiverged i).orig = e.orig := by
  obtain ⟨ws, h⟩ := e.requestDiverged_toState i; rw [h, State.withWindows_orig]
@[simp] theorem Event.requestDiverged_link (i : WinIdx) : (e.requestDiverged i).link = e.link := by
  obtain ⟨ws, h⟩ := e.requestDiverged_toState i; rw [h, State.withWindows_link]
@[simp] theorem Event.requestDiverged_out (i : WinIdx) : (e.requestDiverged i).out = e.out := by
  obtain ⟨ws, h⟩ := e.requestDiverged_toState i; rw [h, State.withWindows_out]
@[simp] theorem Event.requestDiverged_sources (i : WinIdx) : (e.requestDiverged i).sources = e.sources := by
  obtain ⟨ws, h⟩ := e.requestDiverged_toState i; rw [h, State.withWindows_sources]
@[simp] theorem Event.requestDiverged_aq (i : WinIdx) : (e.requestDiverged i).aq = e.aq := by
  obtain ⟨ws, h⟩ := e.requestDiverged_toState i; rw [h, State.withWindows_aq]
@[simp] theorem Event.requestDiverged_arb (i : WinIdx) : (e.requestDiverged i).arb = e.arb := by
  obtain ⟨ws, h⟩ := e.requestDiverged_toState i; rw [h, State.withWindows_arb]
@[simp] theorem Event.requestDiverged_attn (i : WinIdx) : (e.requestDiverged i).attn = e.attn := by
  obtain ⟨ws, h⟩ := e.requestDiverged_toState i; rw [h, State.withWindows_attn]
@[simp] theorem Event.requestDiverged_mgmt (i : WinIdx) : (e.requestDiverged i).mgmt = e.mgmt := by
  obtain ⟨ws, h⟩ := e.requestDiverged_toState i; rw [h, State.withWindows_mgmt]
@[simp] theorem Event.requestDiverged_mem (i : WinIdx) : (e.requestDiverged i).mem = e.mem := by
  obtain ⟨ws, h⟩ := e.requestDiverged_toState i; rw [h, State.withWindows_mem]
@[simp] theorem Event.requestDiverged_pending (i : WinIdx) : (e.requestDiverged i).pending = e.pending := by
  obtain ⟨ws, h⟩ := e.requestDiverged_toState i; rw [h, State.withWindows_pending]
@[simp] theorem Event.requestDiverged_moments (i : WinIdx) : (e.requestDiverged i).moments = e.moments := by
  obtain ⟨ws, h⟩ := e.requestDiverged_toState i; rw [h, State.withWindows_moments]

@[simp] theorem Event.requestStale_resetN (i : WinIdx) : (e.requestStale i).resetN = e.resetN := by
  obtain ⟨ws, h⟩ := e.requestStale_toState i; rw [h, State.withWindows_resetN]
@[simp] theorem Event.requestStale_host (i : WinIdx) : (e.requestStale i).host = e.host := by
  obtain ⟨ws, h⟩ := e.requestStale_toState i; rw [h, State.withWindows_host]
@[simp] theorem Event.requestStale_pq (i : WinIdx) : (e.requestStale i).pq = e.pq := by
  obtain ⟨ws, h⟩ := e.requestStale_toState i; rw [h, State.withWindows_pq]
@[simp] theorem Event.requestStale_orig (i : WinIdx) : (e.requestStale i).orig = e.orig := by
  obtain ⟨ws, h⟩ := e.requestStale_toState i; rw [h, State.withWindows_orig]
@[simp] theorem Event.requestStale_link (i : WinIdx) : (e.requestStale i).link = e.link := by
  obtain ⟨ws, h⟩ := e.requestStale_toState i; rw [h, State.withWindows_link]
@[simp] theorem Event.requestStale_out (i : WinIdx) : (e.requestStale i).out = e.out := by
  obtain ⟨ws, h⟩ := e.requestStale_toState i; rw [h, State.withWindows_out]
@[simp] theorem Event.requestStale_sources (i : WinIdx) : (e.requestStale i).sources = e.sources := by
  obtain ⟨ws, h⟩ := e.requestStale_toState i; rw [h, State.withWindows_sources]
@[simp] theorem Event.requestStale_aq (i : WinIdx) : (e.requestStale i).aq = e.aq := by
  obtain ⟨ws, h⟩ := e.requestStale_toState i; rw [h, State.withWindows_aq]
@[simp] theorem Event.requestStale_arb (i : WinIdx) : (e.requestStale i).arb = e.arb := by
  obtain ⟨ws, h⟩ := e.requestStale_toState i; rw [h, State.withWindows_arb]
@[simp] theorem Event.requestStale_attn (i : WinIdx) : (e.requestStale i).attn = e.attn := by
  obtain ⟨ws, h⟩ := e.requestStale_toState i; rw [h, State.withWindows_attn]
@[simp] theorem Event.requestStale_mgmt (i : WinIdx) : (e.requestStale i).mgmt = e.mgmt := by
  obtain ⟨ws, h⟩ := e.requestStale_toState i; rw [h, State.withWindows_mgmt]
@[simp] theorem Event.requestStale_mem (i : WinIdx) : (e.requestStale i).mem = e.mem := by
  obtain ⟨ws, h⟩ := e.requestStale_toState i; rw [h, State.withWindows_mem]
@[simp] theorem Event.requestStale_pending (i : WinIdx) : (e.requestStale i).pending = e.pending := by
  obtain ⟨ws, h⟩ := e.requestStale_toState i; rw [h, State.withWindows_pending]
@[simp] theorem Event.requestStale_moments (i : WinIdx) : (e.requestStale i).moments = e.moments := by
  obtain ⟨ws, h⟩ := e.requestStale_toState i; rw [h, State.withWindows_moments]

@[simp] theorem Event.requestDivergedAll_resetN (is : List WinIdx) : (e.requestDivergedAll is).resetN = e.resetN := by
  obtain ⟨ws, h⟩ := e.requestDivergedAll_toState is; rw [h, State.withWindows_resetN]
@[simp] theorem Event.requestDivergedAll_host (is : List WinIdx) : (e.requestDivergedAll is).host = e.host := by
  obtain ⟨ws, h⟩ := e.requestDivergedAll_toState is; rw [h, State.withWindows_host]
@[simp] theorem Event.requestDivergedAll_pq (is : List WinIdx) : (e.requestDivergedAll is).pq = e.pq := by
  obtain ⟨ws, h⟩ := e.requestDivergedAll_toState is; rw [h, State.withWindows_pq]
@[simp] theorem Event.requestDivergedAll_orig (is : List WinIdx) : (e.requestDivergedAll is).orig = e.orig := by
  obtain ⟨ws, h⟩ := e.requestDivergedAll_toState is; rw [h, State.withWindows_orig]
@[simp] theorem Event.requestDivergedAll_link (is : List WinIdx) : (e.requestDivergedAll is).link = e.link := by
  obtain ⟨ws, h⟩ := e.requestDivergedAll_toState is; rw [h, State.withWindows_link]
@[simp] theorem Event.requestDivergedAll_out (is : List WinIdx) : (e.requestDivergedAll is).out = e.out := by
  obtain ⟨ws, h⟩ := e.requestDivergedAll_toState is; rw [h, State.withWindows_out]
@[simp] theorem Event.requestDivergedAll_sources (is : List WinIdx) : (e.requestDivergedAll is).sources = e.sources := by
  obtain ⟨ws, h⟩ := e.requestDivergedAll_toState is; rw [h, State.withWindows_sources]
@[simp] theorem Event.requestDivergedAll_aq (is : List WinIdx) : (e.requestDivergedAll is).aq = e.aq := by
  obtain ⟨ws, h⟩ := e.requestDivergedAll_toState is; rw [h, State.withWindows_aq]
@[simp] theorem Event.requestDivergedAll_arb (is : List WinIdx) : (e.requestDivergedAll is).arb = e.arb := by
  obtain ⟨ws, h⟩ := e.requestDivergedAll_toState is; rw [h, State.withWindows_arb]
@[simp] theorem Event.requestDivergedAll_attn (is : List WinIdx) : (e.requestDivergedAll is).attn = e.attn := by
  obtain ⟨ws, h⟩ := e.requestDivergedAll_toState is; rw [h, State.withWindows_attn]
@[simp] theorem Event.requestDivergedAll_mgmt (is : List WinIdx) : (e.requestDivergedAll is).mgmt = e.mgmt := by
  obtain ⟨ws, h⟩ := e.requestDivergedAll_toState is; rw [h, State.withWindows_mgmt]
@[simp] theorem Event.requestDivergedAll_mem (is : List WinIdx) : (e.requestDivergedAll is).mem = e.mem := by
  obtain ⟨ws, h⟩ := e.requestDivergedAll_toState is; rw [h, State.withWindows_mem]
@[simp] theorem Event.requestDivergedAll_pending (is : List WinIdx) : (e.requestDivergedAll is).pending = e.pending := by
  obtain ⟨ws, h⟩ := e.requestDivergedAll_toState is; rw [h, State.withWindows_pending]
@[simp] theorem Event.requestDivergedAll_moments (is : List WinIdx) : (e.requestDivergedAll is).moments = e.moments := by
  obtain ⟨ws, h⟩ := e.requestDivergedAll_toState is; rw [h, State.withWindows_moments]

@[simp] theorem Event.requestStaleAll_resetN (is : List WinIdx) : (e.requestStaleAll is).resetN = e.resetN := by
  obtain ⟨ws, h⟩ := e.requestStaleAll_toState is; rw [h, State.withWindows_resetN]
@[simp] theorem Event.requestStaleAll_host (is : List WinIdx) : (e.requestStaleAll is).host = e.host := by
  obtain ⟨ws, h⟩ := e.requestStaleAll_toState is; rw [h, State.withWindows_host]
@[simp] theorem Event.requestStaleAll_pq (is : List WinIdx) : (e.requestStaleAll is).pq = e.pq := by
  obtain ⟨ws, h⟩ := e.requestStaleAll_toState is; rw [h, State.withWindows_pq]
@[simp] theorem Event.requestStaleAll_orig (is : List WinIdx) : (e.requestStaleAll is).orig = e.orig := by
  obtain ⟨ws, h⟩ := e.requestStaleAll_toState is; rw [h, State.withWindows_orig]
@[simp] theorem Event.requestStaleAll_link (is : List WinIdx) : (e.requestStaleAll is).link = e.link := by
  obtain ⟨ws, h⟩ := e.requestStaleAll_toState is; rw [h, State.withWindows_link]
@[simp] theorem Event.requestStaleAll_out (is : List WinIdx) : (e.requestStaleAll is).out = e.out := by
  obtain ⟨ws, h⟩ := e.requestStaleAll_toState is; rw [h, State.withWindows_out]
@[simp] theorem Event.requestStaleAll_sources (is : List WinIdx) : (e.requestStaleAll is).sources = e.sources := by
  obtain ⟨ws, h⟩ := e.requestStaleAll_toState is; rw [h, State.withWindows_sources]
@[simp] theorem Event.requestStaleAll_aq (is : List WinIdx) : (e.requestStaleAll is).aq = e.aq := by
  obtain ⟨ws, h⟩ := e.requestStaleAll_toState is; rw [h, State.withWindows_aq]
@[simp] theorem Event.requestStaleAll_arb (is : List WinIdx) : (e.requestStaleAll is).arb = e.arb := by
  obtain ⟨ws, h⟩ := e.requestStaleAll_toState is; rw [h, State.withWindows_arb]
@[simp] theorem Event.requestStaleAll_attn (is : List WinIdx) : (e.requestStaleAll is).attn = e.attn := by
  obtain ⟨ws, h⟩ := e.requestStaleAll_toState is; rw [h, State.withWindows_attn]
@[simp] theorem Event.requestStaleAll_mgmt (is : List WinIdx) : (e.requestStaleAll is).mgmt = e.mgmt := by
  obtain ⟨ws, h⟩ := e.requestStaleAll_toState is; rw [h, State.withWindows_mgmt]
@[simp] theorem Event.requestStaleAll_mem (is : List WinIdx) : (e.requestStaleAll is).mem = e.mem := by
  obtain ⟨ws, h⟩ := e.requestStaleAll_toState is; rw [h, State.withWindows_mem]
@[simp] theorem Event.requestStaleAll_pending (is : List WinIdx) : (e.requestStaleAll is).pending = e.pending := by
  obtain ⟨ws, h⟩ := e.requestStaleAll_toState is; rw [h, State.withWindows_pending]
@[simp] theorem Event.requestStaleAll_moments (is : List WinIdx) : (e.requestStaleAll is).moments = e.moments := by
  obtain ⟨ws, h⟩ := e.requestStaleAll_toState is; rw [h, State.withWindows_moments]

/-! ### Holds and queues -/

@[simp] theorem endPublishHold_resetN (cls : HostClass) (w : Option WinIdx) : (endPublishHold cls w s).resetN = s.resetN := rfl
@[simp] theorem endPublishHold_windows (cls : HostClass) (w : Option WinIdx) : (endPublishHold cls w s).windows = s.windows := rfl
@[simp] theorem endPublishHold_orig (cls : HostClass) (w : Option WinIdx) : (endPublishHold cls w s).orig = s.orig := rfl
@[simp] theorem endPublishHold_link (cls : HostClass) (w : Option WinIdx) : (endPublishHold cls w s).link = s.link := rfl
@[simp] theorem endPublishHold_out (cls : HostClass) (w : Option WinIdx) : (endPublishHold cls w s).out = s.out := rfl
@[simp] theorem endPublishHold_sources (cls : HostClass) (w : Option WinIdx) : (endPublishHold cls w s).sources = s.sources := rfl
@[simp] theorem endPublishHold_aq (cls : HostClass) (w : Option WinIdx) : (endPublishHold cls w s).aq = s.aq := rfl
@[simp] theorem endPublishHold_arb (cls : HostClass) (w : Option WinIdx) : (endPublishHold cls w s).arb = s.arb := rfl
@[simp] theorem endPublishHold_node (cls : HostClass) (w : Option WinIdx) : (endPublishHold cls w s).node = s.node := rfl
@[simp] theorem endPublishHold_attn (cls : HostClass) (w : Option WinIdx) : (endPublishHold cls w s).attn = s.attn := rfl
@[simp] theorem endPublishHold_mgmt (cls : HostClass) (w : Option WinIdx) : (endPublishHold cls w s).mgmt = s.mgmt := rfl
@[simp] theorem endPublishHold_mem (cls : HostClass) (w : Option WinIdx) : (endPublishHold cls w s).mem = s.mem := rfl
@[simp] theorem endPublishHold_pending (cls : HostClass) (w : Option WinIdx) : (endPublishHold cls w s).pending = s.pending := rfl
@[simp] theorem endPublishHold_moments (cls : HostClass) (w : Option WinIdx) : (endPublishHold cls w s).moments = s.moments := rfl

@[simp] theorem Event.demoteUnpublished_resetN : (e.demoteUnpublished).resetN = e.resetN := by
  obtain ⟨h, q, ws, heq⟩ := e.demoteUnpublished_eq; rw [heq]; rfl
@[simp] theorem Event.demoteUnpublished_orig : (e.demoteUnpublished).orig = e.orig := by
  obtain ⟨h, q, ws, heq⟩ := e.demoteUnpublished_eq; rw [heq]; rfl
@[simp] theorem Event.demoteUnpublished_link : (e.demoteUnpublished).link = e.link := by
  obtain ⟨h, q, ws, heq⟩ := e.demoteUnpublished_eq; rw [heq]; rfl
@[simp] theorem Event.demoteUnpublished_out : (e.demoteUnpublished).out = e.out := by
  obtain ⟨h, q, ws, heq⟩ := e.demoteUnpublished_eq; rw [heq]; rfl
@[simp] theorem Event.demoteUnpublished_sources : (e.demoteUnpublished).sources = e.sources := by
  obtain ⟨h, q, ws, heq⟩ := e.demoteUnpublished_eq; rw [heq]; rfl
@[simp] theorem Event.demoteUnpublished_aq : (e.demoteUnpublished).aq = e.aq := by
  obtain ⟨h, q, ws, heq⟩ := e.demoteUnpublished_eq; rw [heq]; rfl
@[simp] theorem Event.demoteUnpublished_arb : (e.demoteUnpublished).arb = e.arb := by
  obtain ⟨h, q, ws, heq⟩ := e.demoteUnpublished_eq; rw [heq]; rfl
@[simp] theorem Event.demoteUnpublished_attn : (e.demoteUnpublished).attn = e.attn := by
  obtain ⟨h, q, ws, heq⟩ := e.demoteUnpublished_eq; rw [heq]; rfl
@[simp] theorem Event.demoteUnpublished_mgmt : (e.demoteUnpublished).mgmt = e.mgmt := by
  obtain ⟨h, q, ws, heq⟩ := e.demoteUnpublished_eq; rw [heq]; rfl
@[simp] theorem Event.demoteUnpublished_mem : (e.demoteUnpublished).mem = e.mem := by
  obtain ⟨h, q, ws, heq⟩ := e.demoteUnpublished_eq; rw [heq]; rfl
@[simp] theorem Event.demoteUnpublished_pending : (e.demoteUnpublished).pending = e.pending := by
  obtain ⟨h, q, ws, heq⟩ := e.demoteUnpublished_eq; rw [heq]; rfl
@[simp] theorem Event.demoteUnpublished_moments : (e.demoteUnpublished).moments = e.moments := by
  obtain ⟨h, q, ws, heq⟩ := e.demoteUnpublished_eq; rw [heq]; rfl

@[simp] theorem Event.createEntry_resetN (r : CaptureRequest) : (e.createEntry r).resetN = e.resetN := rfl
@[simp] theorem Event.createEntry_host (r : CaptureRequest) : (e.createEntry r).host = e.host := rfl
@[simp] theorem Event.createEntry_orig (r : CaptureRequest) : (e.createEntry r).orig = e.orig := rfl
@[simp] theorem Event.createEntry_link (r : CaptureRequest) : (e.createEntry r).link = e.link := rfl
@[simp] theorem Event.createEntry_out (r : CaptureRequest) : (e.createEntry r).out = e.out := rfl
@[simp] theorem Event.createEntry_sources (r : CaptureRequest) : (e.createEntry r).sources = e.sources := rfl
@[simp] theorem Event.createEntry_aq (r : CaptureRequest) : (e.createEntry r).aq = e.aq := rfl
@[simp] theorem Event.createEntry_arb (r : CaptureRequest) : (e.createEntry r).arb = e.arb := rfl
@[simp] theorem Event.createEntry_attn (r : CaptureRequest) : (e.createEntry r).attn = e.attn := rfl
@[simp] theorem Event.createEntry_mgmt (r : CaptureRequest) : (e.createEntry r).mgmt = e.mgmt := rfl
@[simp] theorem Event.createEntry_mem (r : CaptureRequest) : (e.createEntry r).mem = e.mem := rfl
@[simp] theorem Event.createEntry_pending (r : CaptureRequest) : (e.createEntry r).pending = e.pending := rfl
@[simp] theorem Event.createEntry_moments (r : CaptureRequest) : (e.createEntry r).moments = e.moments := rfl

@[simp] theorem Event.combineTail_resetN (r : CaptureRequest) (t : PqEntry) : (e.combineTail r t).resetN = e.resetN := rfl
@[simp] theorem Event.combineTail_host (r : CaptureRequest) (t : PqEntry) : (e.combineTail r t).host = e.host := rfl
@[simp] theorem Event.combineTail_orig (r : CaptureRequest) (t : PqEntry) : (e.combineTail r t).orig = e.orig := rfl
@[simp] theorem Event.combineTail_link (r : CaptureRequest) (t : PqEntry) : (e.combineTail r t).link = e.link := rfl
@[simp] theorem Event.combineTail_out (r : CaptureRequest) (t : PqEntry) : (e.combineTail r t).out = e.out := rfl
@[simp] theorem Event.combineTail_sources (r : CaptureRequest) (t : PqEntry) : (e.combineTail r t).sources = e.sources := rfl
@[simp] theorem Event.combineTail_aq (r : CaptureRequest) (t : PqEntry) : (e.combineTail r t).aq = e.aq := rfl
@[simp] theorem Event.combineTail_arb (r : CaptureRequest) (t : PqEntry) : (e.combineTail r t).arb = e.arb := rfl
@[simp] theorem Event.combineTail_attn (r : CaptureRequest) (t : PqEntry) : (e.combineTail r t).attn = e.attn := rfl
@[simp] theorem Event.combineTail_mgmt (r : CaptureRequest) (t : PqEntry) : (e.combineTail r t).mgmt = e.mgmt := rfl
@[simp] theorem Event.combineTail_mem (r : CaptureRequest) (t : PqEntry) : (e.combineTail r t).mem = e.mem := rfl
@[simp] theorem Event.combineTail_pending (r : CaptureRequest) (t : PqEntry) : (e.combineTail r t).pending = e.pending := rfl
@[simp] theorem Event.combineTail_moments (r : CaptureRequest) (t : PqEntry) : (e.combineTail r t).moments = e.moments := rfl

@[simp] theorem Event.roomCheck_resetN : (e.roomCheck).resetN = e.resetN := by
  rcases e.roomCheck_cases with h | ⟨r, -, -, -, h⟩
  · rw [h]
  · rw [h]; rfl
@[simp] theorem Event.roomCheck_orig : (e.roomCheck).orig = e.orig := by
  rcases e.roomCheck_cases with h | ⟨r, -, -, -, h⟩
  · rw [h]
  · rw [h]; rfl
@[simp] theorem Event.roomCheck_link : (e.roomCheck).link = e.link := by
  rcases e.roomCheck_cases with h | ⟨r, -, -, -, h⟩
  · rw [h]
  · rw [h]; rfl
@[simp] theorem Event.roomCheck_out : (e.roomCheck).out = e.out := by
  rcases e.roomCheck_cases with h | ⟨r, -, -, -, h⟩
  · rw [h]
  · rw [h]; rfl
@[simp] theorem Event.roomCheck_sources : (e.roomCheck).sources = e.sources := by
  rcases e.roomCheck_cases with h | ⟨r, -, -, -, h⟩
  · rw [h]
  · rw [h]; rfl
@[simp] theorem Event.roomCheck_aq : (e.roomCheck).aq = e.aq := by
  rcases e.roomCheck_cases with h | ⟨r, -, -, -, h⟩
  · rw [h]
  · rw [h]; rfl
@[simp] theorem Event.roomCheck_arb : (e.roomCheck).arb = e.arb := by
  rcases e.roomCheck_cases with h | ⟨r, -, -, -, h⟩
  · rw [h]
  · rw [h]; rfl
@[simp] theorem Event.roomCheck_attn : (e.roomCheck).attn = e.attn := by
  rcases e.roomCheck_cases with h | ⟨r, -, -, -, h⟩
  · rw [h]
  · rw [h]; rfl
@[simp] theorem Event.roomCheck_mgmt : (e.roomCheck).mgmt = e.mgmt := by
  rcases e.roomCheck_cases with h | ⟨r, -, -, -, h⟩
  · rw [h]
  · rw [h]; rfl
@[simp] theorem Event.roomCheck_mem : (e.roomCheck).mem = e.mem := by
  rcases e.roomCheck_cases with h | ⟨r, -, -, -, h⟩
  · rw [h]
  · rw [h]; rfl
@[simp] theorem Event.roomCheck_pending : (e.roomCheck).pending = e.pending := by
  rcases e.roomCheck_cases with h | ⟨r, -, -, -, h⟩
  · rw [h]
  · rw [h]; rfl
@[simp] theorem Event.roomCheck_moments : (e.roomCheck).moments = e.moments := by
  rcases e.roomCheck_cases with h | ⟨r, -, -, -, h⟩
  · rw [h]
  · rw [h]; rfl

@[simp] theorem Event.discardPq_resetN : (e.discardPq).resetN = e.resetN := by simp [Event.discardPq]
@[simp] theorem Event.discardPq_host : (e.discardPq).host = e.host := by simp [Event.discardPq]
@[simp] theorem Event.discardPq_orig : (e.discardPq).orig = e.orig := by simp [Event.discardPq]
@[simp] theorem Event.discardPq_link : (e.discardPq).link = e.link := by simp [Event.discardPq]
@[simp] theorem Event.discardPq_out : (e.discardPq).out = e.out := by simp [Event.discardPq]
@[simp] theorem Event.discardPq_sources : (e.discardPq).sources = e.sources := by simp [Event.discardPq]
@[simp] theorem Event.discardPq_aq : (e.discardPq).aq = e.aq := by simp [Event.discardPq]
@[simp] theorem Event.discardPq_arb : (e.discardPq).arb = e.arb := by simp [Event.discardPq]
@[simp] theorem Event.discardPq_attn : (e.discardPq).attn = e.attn := by simp [Event.discardPq]
@[simp] theorem Event.discardPq_mgmt : (e.discardPq).mgmt = e.mgmt := by simp [Event.discardPq]
@[simp] theorem Event.discardPq_mem : (e.discardPq).mem = e.mem := by simp [Event.discardPq]
@[simp] theorem Event.discardPq_pending : (e.discardPq).pending = e.pending := by simp [Event.discardPq]
@[simp] theorem Event.discardPq_moments : (e.discardPq).moments = e.moments := by simp [Event.discardPq]

@[simp] theorem Event.discardFlight_resetN : (e.discardFlight).resetN = e.resetN := by simp [Event.discardFlight, clearFlight]
@[simp] theorem Event.discardFlight_host : (e.discardFlight).host = e.host := by simp [Event.discardFlight, clearFlight]
@[simp] theorem Event.discardFlight_pq : (e.discardFlight).pq = e.pq := by simp [Event.discardFlight, clearFlight]
@[simp] theorem Event.discardFlight_link : (e.discardFlight).link = e.link := by simp [Event.discardFlight, clearFlight]
@[simp] theorem Event.discardFlight_out : (e.discardFlight).out = e.out := by simp [Event.discardFlight, clearFlight]
@[simp] theorem Event.discardFlight_sources : (e.discardFlight).sources = e.sources := by simp [Event.discardFlight, clearFlight]
@[simp] theorem Event.discardFlight_aq : (e.discardFlight).aq = e.aq := by simp [Event.discardFlight, clearFlight]
@[simp] theorem Event.discardFlight_arb : (e.discardFlight).arb = e.arb := by simp [Event.discardFlight, clearFlight]
@[simp] theorem Event.discardFlight_attn : (e.discardFlight).attn = e.attn := by simp [Event.discardFlight, clearFlight]
@[simp] theorem Event.discardFlight_mgmt : (e.discardFlight).mgmt = e.mgmt := by simp [Event.discardFlight, clearFlight]
@[simp] theorem Event.discardFlight_mem : (e.discardFlight).mem = e.mem := by simp [Event.discardFlight, clearFlight]
@[simp] theorem Event.discardFlight_pending : (e.discardFlight).pending = e.pending := by simp [Event.discardFlight, clearFlight]
@[simp] theorem Event.discardFlight_moments : (e.discardFlight).moments = e.moments := by simp [Event.discardFlight, clearFlight]

@[simp] theorem releaseReadHold_resetN : (releaseReadHold s).resetN = s.resetN := by
  rcases releaseReadHold_cases s with ⟨-, -, h⟩ | ⟨-, h⟩
  · rw [h]; rfl
  · rw [h]
@[simp] theorem releaseReadHold_windows : (releaseReadHold s).windows = s.windows := by
  rcases releaseReadHold_cases s with ⟨-, -, h⟩ | ⟨-, h⟩
  · rw [h]; rfl
  · rw [h]
@[simp] theorem releaseReadHold_pq : (releaseReadHold s).pq = s.pq := by
  rcases releaseReadHold_cases s with ⟨-, -, h⟩ | ⟨-, h⟩
  · rw [h]; rfl
  · rw [h]
@[simp] theorem releaseReadHold_orig : (releaseReadHold s).orig = s.orig := by
  rcases releaseReadHold_cases s with ⟨-, -, h⟩ | ⟨-, h⟩
  · rw [h]; rfl
  · rw [h]
@[simp] theorem releaseReadHold_link : (releaseReadHold s).link = s.link := by
  rcases releaseReadHold_cases s with ⟨-, -, h⟩ | ⟨-, h⟩
  · rw [h]; rfl
  · rw [h]
@[simp] theorem releaseReadHold_out : (releaseReadHold s).out = s.out := by
  rcases releaseReadHold_cases s with ⟨-, -, h⟩ | ⟨-, h⟩
  · rw [h]; rfl
  · rw [h]
@[simp] theorem releaseReadHold_sources : (releaseReadHold s).sources = s.sources := by
  rcases releaseReadHold_cases s with ⟨-, -, h⟩ | ⟨-, h⟩
  · rw [h]; rfl
  · rw [h]
@[simp] theorem releaseReadHold_aq : (releaseReadHold s).aq = s.aq := by
  rcases releaseReadHold_cases s with ⟨-, -, h⟩ | ⟨-, h⟩
  · rw [h]; rfl
  · rw [h]
@[simp] theorem releaseReadHold_arb : (releaseReadHold s).arb = s.arb := by
  rcases releaseReadHold_cases s with ⟨-, -, h⟩ | ⟨-, h⟩
  · rw [h]; rfl
  · rw [h]
@[simp] theorem releaseReadHold_attn : (releaseReadHold s).attn = s.attn := by
  rcases releaseReadHold_cases s with ⟨-, -, h⟩ | ⟨-, h⟩
  · rw [h]; rfl
  · rw [h]
@[simp] theorem releaseReadHold_mgmt : (releaseReadHold s).mgmt = s.mgmt := by
  rcases releaseReadHold_cases s with ⟨-, -, h⟩ | ⟨-, h⟩
  · rw [h]; rfl
  · rw [h]
@[simp] theorem releaseReadHold_mem : (releaseReadHold s).mem = s.mem := by
  rcases releaseReadHold_cases s with ⟨-, -, h⟩ | ⟨-, h⟩
  · rw [h]; rfl
  · rw [h]
@[simp] theorem releaseReadHold_pending : (releaseReadHold s).pending = s.pending := by
  rcases releaseReadHold_cases s with ⟨-, -, h⟩ | ⟨-, h⟩
  · rw [h]; rfl
  · rw [h]
@[simp] theorem releaseReadHold_moments : (releaseReadHold s).moments = s.moments := by
  rcases releaseReadHold_cases s with ⟨-, -, h⟩ | ⟨-, h⟩
  · rw [h]; rfl
  · rw [h]

@[simp] theorem voidWaiting_resetN (which : AqEntry → Bool) : (voidWaiting which s).resetN = s.resetN := by simp [voidWaiting]
@[simp] theorem voidWaiting_windows (which : AqEntry → Bool) : (voidWaiting which s).windows = s.windows := by simp [voidWaiting]
@[simp] theorem voidWaiting_pq (which : AqEntry → Bool) : (voidWaiting which s).pq = s.pq := by simp [voidWaiting]
@[simp] theorem voidWaiting_orig (which : AqEntry → Bool) : (voidWaiting which s).orig = s.orig := by simp [voidWaiting]
@[simp] theorem voidWaiting_link (which : AqEntry → Bool) : (voidWaiting which s).link = s.link := by simp [voidWaiting]
@[simp] theorem voidWaiting_out (which : AqEntry → Bool) : (voidWaiting which s).out = s.out := by simp [voidWaiting]
@[simp] theorem voidWaiting_sources (which : AqEntry → Bool) : (voidWaiting which s).sources = s.sources := by simp [voidWaiting]
@[simp] theorem voidWaiting_arb (which : AqEntry → Bool) : (voidWaiting which s).arb = s.arb := by simp [voidWaiting]
@[simp] theorem voidWaiting_attn (which : AqEntry → Bool) : (voidWaiting which s).attn = s.attn := by simp [voidWaiting]
@[simp] theorem voidWaiting_mgmt (which : AqEntry → Bool) : (voidWaiting which s).mgmt = s.mgmt := by simp [voidWaiting]
@[simp] theorem voidWaiting_mem (which : AqEntry → Bool) : (voidWaiting which s).mem = s.mem := by simp [voidWaiting]
@[simp] theorem voidWaiting_pending (which : AqEntry → Bool) : (voidWaiting which s).pending = s.pending := by simp [voidWaiting]
@[simp] theorem voidWaiting_moments (which : AqEntry → Bool) : (voidWaiting which s).moments = s.moments := by simp [voidWaiting]

/-! ### Levels, reports and the end of a drain -/

@[simp] theorem Event.isolate_resetN : (e.isolate).resetN = e.resetN := by
  simp [Event.isolate, abandonAnnounce, setMode, setLevel]
@[simp] theorem Event.isolate_link : (e.isolate).link = e.link := by
  simp [Event.isolate, abandonAnnounce, setMode, setLevel]
@[simp] theorem Event.isolate_out : (e.isolate).out = e.out := by
  simp [Event.isolate, abandonAnnounce, setMode, setLevel]
@[simp] theorem Event.isolate_sources : (e.isolate).sources = e.sources := by
  simp [Event.isolate, abandonAnnounce, setMode, setLevel]
@[simp] theorem Event.isolate_aq : (e.isolate).aq = e.aq := by
  simp [Event.isolate, abandonAnnounce, setMode, setLevel]
@[simp] theorem Event.isolate_arb : (e.isolate).arb = e.arb := by
  simp [Event.isolate, abandonAnnounce, setMode, setLevel]
@[simp] theorem Event.isolate_attn : (e.isolate).attn = e.attn := by
  simp [Event.isolate, abandonAnnounce, setMode, setLevel]
@[simp] theorem Event.isolate_mgmt : (e.isolate).mgmt = e.mgmt := by
  simp [Event.isolate, abandonAnnounce, setMode, setLevel]
@[simp] theorem Event.isolate_mem : (e.isolate).mem = e.mem := by
  simp [Event.isolate, abandonAnnounce, setMode, setLevel]
@[simp] theorem Event.isolate_pending : (e.isolate).pending = e.pending := by
  simp [Event.isolate, abandonAnnounce, setMode, setLevel]
@[simp] theorem Event.isolate_moments : (e.isolate).moments = e.moments := by
  simp [Event.isolate, abandonAnnounce, setMode, setLevel]

@[simp] theorem Event.evaluateLevel_resetN : (e.evaluateLevel).resetN = e.resetN := by
  rcases e.evaluateLevel_cases with ⟨-, -, h⟩ | ⟨-, h⟩ | ⟨-, -, -, h⟩ | h
  all_goals rw [h]
  all_goals simp [setLevel]
@[simp] theorem Event.evaluateLevel_link : (e.evaluateLevel).link = e.link := by
  rcases e.evaluateLevel_cases with ⟨-, -, h⟩ | ⟨-, h⟩ | ⟨-, -, -, h⟩ | h
  all_goals rw [h]
  all_goals simp [setLevel]
@[simp] theorem Event.evaluateLevel_out : (e.evaluateLevel).out = e.out := by
  rcases e.evaluateLevel_cases with ⟨-, -, h⟩ | ⟨-, h⟩ | ⟨-, -, -, h⟩ | h
  all_goals rw [h]
  all_goals simp [setLevel]
@[simp] theorem Event.evaluateLevel_sources : (e.evaluateLevel).sources = e.sources := by
  rcases e.evaluateLevel_cases with ⟨-, -, h⟩ | ⟨-, h⟩ | ⟨-, -, -, h⟩ | h
  all_goals rw [h]
  all_goals simp [setLevel]
@[simp] theorem Event.evaluateLevel_aq : (e.evaluateLevel).aq = e.aq := by
  rcases e.evaluateLevel_cases with ⟨-, -, h⟩ | ⟨-, h⟩ | ⟨-, -, -, h⟩ | h
  all_goals rw [h]
  all_goals simp [setLevel]
@[simp] theorem Event.evaluateLevel_arb : (e.evaluateLevel).arb = e.arb := by
  rcases e.evaluateLevel_cases with ⟨-, -, h⟩ | ⟨-, h⟩ | ⟨-, -, -, h⟩ | h
  all_goals rw [h]
  all_goals simp [setLevel]
@[simp] theorem Event.evaluateLevel_attn : (e.evaluateLevel).attn = e.attn := by
  rcases e.evaluateLevel_cases with ⟨-, -, h⟩ | ⟨-, h⟩ | ⟨-, -, -, h⟩ | h
  all_goals rw [h]
  all_goals simp [setLevel]
@[simp] theorem Event.evaluateLevel_mgmt : (e.evaluateLevel).mgmt = e.mgmt := by
  rcases e.evaluateLevel_cases with ⟨-, -, h⟩ | ⟨-, h⟩ | ⟨-, -, -, h⟩ | h
  all_goals rw [h]
  all_goals simp [setLevel]
@[simp] theorem Event.evaluateLevel_mem : (e.evaluateLevel).mem = e.mem := by
  rcases e.evaluateLevel_cases with ⟨-, -, h⟩ | ⟨-, h⟩ | ⟨-, -, -, h⟩ | h
  all_goals rw [h]
  all_goals simp [setLevel]
@[simp] theorem Event.evaluateLevel_pending : (e.evaluateLevel).pending = e.pending := by
  rcases e.evaluateLevel_cases with ⟨-, -, h⟩ | ⟨-, h⟩ | ⟨-, -, -, h⟩ | h
  all_goals rw [h]
  all_goals simp [setLevel]
@[simp] theorem Event.evaluateLevel_moments : (e.evaluateLevel).moments = e.moments := by
  rcases e.evaluateLevel_cases with ⟨-, -, h⟩ | ⟨-, h⟩ | ⟨-, -, -, h⟩ | h
  all_goals rw [h]
  all_goals simp [setLevel]

@[simp] theorem Event.reportUnder_resetN (m : Mode) (r : Report) : (e.reportUnder m r).resetN = e.resetN := by
  unfold Event.reportUnder; split <;> simp
@[simp] theorem Event.reportUnder_link (m : Mode) (r : Report) : (e.reportUnder m r).link = e.link := by
  unfold Event.reportUnder; split <;> simp
@[simp] theorem Event.reportUnder_out (m : Mode) (r : Report) : (e.reportUnder m r).out = e.out := by
  unfold Event.reportUnder; split <;> simp
@[simp] theorem Event.reportUnder_sources (m : Mode) (r : Report) : (e.reportUnder m r).sources = e.sources := by
  unfold Event.reportUnder; split <;> simp
@[simp] theorem Event.reportUnder_aq (m : Mode) (r : Report) : (e.reportUnder m r).aq = e.aq := by
  unfold Event.reportUnder; split <;> simp
@[simp] theorem Event.reportUnder_arb (m : Mode) (r : Report) : (e.reportUnder m r).arb = e.arb := by
  unfold Event.reportUnder; split <;> simp
@[simp] theorem Event.reportUnder_attn (m : Mode) (r : Report) : (e.reportUnder m r).attn = e.attn := by
  unfold Event.reportUnder; split <;> simp
@[simp] theorem Event.reportUnder_mgmt (m : Mode) (r : Report) : (e.reportUnder m r).mgmt = e.mgmt := by
  unfold Event.reportUnder; split <;> simp
@[simp] theorem Event.reportUnder_mem (m : Mode) (r : Report) : (e.reportUnder m r).mem = e.mem := by
  unfold Event.reportUnder; split <;> simp
@[simp] theorem Event.reportUnder_pending (m : Mode) (r : Report) : (e.reportUnder m r).pending = e.pending := by
  unfold Event.reportUnder; split <;> simp
@[simp] theorem Event.reportUnder_moments (m : Mode) (r : Report) : (e.reportUnder m r).moments = e.moments := by
  unfold Event.reportUnder; split <;> simp

@[simp] theorem Event.report_resetN (r : Report) : (e.report r).resetN = e.resetN := e.reportUnder_resetN _ r
@[simp] theorem Event.report_link (r : Report) : (e.report r).link = e.link := e.reportUnder_link _ r
@[simp] theorem Event.report_out (r : Report) : (e.report r).out = e.out := e.reportUnder_out _ r
@[simp] theorem Event.report_sources (r : Report) : (e.report r).sources = e.sources := e.reportUnder_sources _ r
@[simp] theorem Event.report_aq (r : Report) : (e.report r).aq = e.aq := e.reportUnder_aq _ r
@[simp] theorem Event.report_arb (r : Report) : (e.report r).arb = e.arb := e.reportUnder_arb _ r
@[simp] theorem Event.report_attn (r : Report) : (e.report r).attn = e.attn := e.reportUnder_attn _ r
@[simp] theorem Event.report_mgmt (r : Report) : (e.report r).mgmt = e.mgmt := e.reportUnder_mgmt _ r
@[simp] theorem Event.report_mem (r : Report) : (e.report r).mem = e.mem := e.reportUnder_mem _ r
@[simp] theorem Event.report_pending (r : Report) : (e.report r).pending = e.pending := e.reportUnder_pending _ r
@[simp] theorem Event.report_moments (r : Report) : (e.report r).moments = e.moments := e.reportUnder_moments _ r

@[simp] theorem Event.drainCheck_resetN : (e.drainCheck).resetN = e.resetN := by
  rcases e.drainCheck_cases with ⟨-, -, -, h⟩ | ⟨-, h⟩
  · rw [h]; rfl
  · rw [h]
@[simp] theorem Event.drainCheck_host : (e.drainCheck).host = e.host := by
  rcases e.drainCheck_cases with ⟨-, -, -, h⟩ | ⟨-, h⟩
  · rw [h]; rfl
  · rw [h]
@[simp] theorem Event.drainCheck_windows : (e.drainCheck).windows = e.windows := by
  rcases e.drainCheck_cases with ⟨-, -, -, h⟩ | ⟨-, h⟩
  · rw [h]; rfl
  · rw [h]
@[simp] theorem Event.drainCheck_pq : (e.drainCheck).pq = e.pq := by
  rcases e.drainCheck_cases with ⟨-, -, -, h⟩ | ⟨-, h⟩
  · rw [h]; rfl
  · rw [h]
@[simp] theorem Event.drainCheck_orig : (e.drainCheck).orig = e.orig := by
  rcases e.drainCheck_cases with ⟨-, -, -, h⟩ | ⟨-, h⟩
  · rw [h]; rfl
  · rw [h]
@[simp] theorem Event.drainCheck_link : (e.drainCheck).link = e.link := by
  rcases e.drainCheck_cases with ⟨-, -, -, h⟩ | ⟨-, h⟩
  · rw [h]; rfl
  · rw [h]
@[simp] theorem Event.drainCheck_out : (e.drainCheck).out = e.out := by
  rcases e.drainCheck_cases with ⟨-, -, -, h⟩ | ⟨-, h⟩
  · rw [h]; rfl
  · rw [h]
@[simp] theorem Event.drainCheck_sources : (e.drainCheck).sources = e.sources := by
  rcases e.drainCheck_cases with ⟨-, -, -, h⟩ | ⟨-, h⟩
  · rw [h]; rfl
  · rw [h]
@[simp] theorem Event.drainCheck_aq : (e.drainCheck).aq = e.aq := by
  rcases e.drainCheck_cases with ⟨-, -, -, h⟩ | ⟨-, h⟩
  · rw [h]; rfl
  · rw [h]
@[simp] theorem Event.drainCheck_arb : (e.drainCheck).arb = e.arb := by
  rcases e.drainCheck_cases with ⟨-, -, -, h⟩ | ⟨-, h⟩
  · rw [h]; rfl
  · rw [h]
@[simp] theorem Event.drainCheck_attn : (e.drainCheck).attn = e.attn := by
  rcases e.drainCheck_cases with ⟨-, -, -, h⟩ | ⟨-, h⟩
  · rw [h]; rfl
  · rw [h]
@[simp] theorem Event.drainCheck_mgmt : (e.drainCheck).mgmt = e.mgmt := by
  rcases e.drainCheck_cases with ⟨-, -, -, h⟩ | ⟨-, h⟩
  · rw [h]; rfl
  · rw [h]
@[simp] theorem Event.drainCheck_mem : (e.drainCheck).mem = e.mem := by
  rcases e.drainCheck_cases with ⟨-, -, -, h⟩ | ⟨-, h⟩
  · rw [h]; rfl
  · rw [h]
@[simp] theorem Event.drainCheck_pending : (e.drainCheck).pending = e.pending := by
  rcases e.drainCheck_cases with ⟨-, -, -, h⟩ | ⟨-, h⟩
  · rw [h]; rfl
  · rw [h]
@[simp] theorem Event.drainCheck_moments : (e.drainCheck).moments = e.moments := by
  rcases e.drainCheck_cases with ⟨-, -, -, h⟩ | ⟨-, h⟩
  · rw [h]; rfl
  · rw [h]

end Frames

end Sys2Proof.Machine
end

section
/-! SUPPORT. The laws of the queues, the Host Path, the In-Flight List and the ports, restated so that an operation's
effect on them can be read off, and that every update of a block keeps the laws of the other blocks. -/

namespace Sys2Proof.Machine

/-! ## The In-Flight List (R79, R80) -/

/-- Consecutive sequences, the last one just before `next`. -/
def Numbered : List IflEntry → Byte → Prop
  | [], _ => True
  | f :: fl, next => f.seq = next - BitVec.ofNat 8 (fl.length + 1) ∧ Numbered fl next

theorem numbered_iff (fl : List IflEntry) (next : Byte) :
    Numbered fl next ↔ ∀ i : Fin fl.length, fl[i].seq = next - BitVec.ofNat 8 (fl.length - i.val) := by
  induction fl with
  | nil => exact ⟨fun _ i => i.elim0, fun _ => trivial⟩
  | cons f fl ih =>
    simp only [Numbered, ih, Fin.forall_fin_succ, List.length_cons, Fin.val_zero, Fin.val_succ, Fin.getElem_fin,
      List.getElem_cons_zero, List.getElem_cons_succ, Nat.sub_zero, Nat.add_sub_add_right]

theorem byte_succ_sub (n : Byte) (k : Nat) : n + 1 - BitVec.ofNat 8 (k + 1) = n - BitVec.ofNat 8 k := by
  rw [BitVec.ofNat_add]
  exact add_sub_add_right_eq_sub n _ 1

theorem numbered_append_single {fl : List IflEntry} {f : IflEntry} {next : Byte} (h : Numbered fl next)
    (hf : f.seq = next) : Numbered (fl ++ [f]) (next + 1) := by
  induction fl with
  | nil => exact ⟨by rw [hf, List.length_nil, byte_succ_sub]; simp, trivial⟩
  | cons g fl ih =>
    refine ⟨?_, ih h.2⟩
    rw [h.1, ← byte_succ_sub]
    simp

/-- Entries of the same sequences are numbered alike. -/
theorem numbered_congr {fl gl : List IflEntry} {next : Byte} (h : fl.map IflEntry.seq = gl.map IflEntry.seq) :
    Numbered fl next ↔ Numbered gl next := by
  induction fl generalizing gl with
  | nil => cases gl with
    | nil => rfl
    | cons g gl => cases h
  | cons f fl ih => cases gl with
    | nil => cases h
    | cons g gl =>
      simp only [List.map_cons, List.cons.injEq] at h
      have hl : fl.length = gl.length := by simpa using congrArg List.length h.2
      rw [Numbered, Numbered, ih h.2, h.1, hl]

/-- The sequence minus the head's is the position, for up to sixteen entries (R85). -/
theorem flightPosition_of_numbered {fl : List IflEntry} {next q : Byte} (h : Numbered fl next) (hl : fl.length ≤ 16)
    (i : Nat) : flightPosition fl q = some i ↔ ∃ hi : i < fl.length, fl[i].seq = q := by
  cases fl with
  | nil => simp [flightPosition]
  | cons f rest =>
    have hseq (k : Nat) (hk : k < (f :: rest).length) :
        (f :: rest)[k].seq = next - BitVec.ofNat 8 (rest.length + 1 - k) :=
      (numbered_iff _ _).1 h ⟨k, hk⟩
    have hlen : rest.length + 1 ≤ 16 := hl
    have hpos (k : Nat) (hk : k < (f :: rest).length) : ((f :: rest)[k].seq - f.seq).toNat = k := by
      have hk' : k < rest.length + 1 := hk
      rw [hseq k hk, h.1]
      simp only [BitVec.toNat_sub, BitVec.toNat_ofNat]
      omega
    have hback (d : Nat) (hd : d < (f :: rest).length) (he : (q - f.seq).toNat = d) : (f :: rest)[d].seq = q := by
      have h1 : (f :: rest)[d].seq - f.seq = q - f.seq := BitVec.eq_of_toNat_eq ((hpos d hd).trans he.symm)
      exact sub_left_injective h1
    simp only [flightPosition]
    constructor
    · intro hs
      obtain ⟨hlt, hi⟩ := Option.ite_none_right_eq_some.1 hs
      cases hi
      exact ⟨hlt, hback _ hlt rfl⟩
    · rintro ⟨hi, rfl⟩
      rw [hpos i hi, if_pos hi]

/-- The In-Flight List in its two parts: the entries SENT, then those that await their resend. -/
structure FlightSplit (o : Origination) (limit : Byte) (done todo : List IflEntry) : Prop where
  flight : o.flight = done ++ todo
  sent : ∀ f ∈ done, f.state = .sent
  awaiting : ∀ f ∈ todo, f.state = .awaitingResend
  numbered : Numbered o.flight o.nextSeq
  room : o.flight.length ≤ 16
  pointer : o.resend = todo.head?.map IflEntry.seq
  older : o.flight.Pairwise fun f g => g.retry.toNat ≤ f.retry.toNat
  limited : ∀ f ∈ o.flight, f.retry.toNat ≤ limit.toNat
  backoff : o.backoff.isSome = true → todo ≠ [] ∧ done = []

/-- The Origination Unit's list is sound under a retry limit. -/
def FlightOk (o : Origination) (limit : Byte) : Prop := ∃ done todo, FlightSplit o limit done todo

theorem FlightSplit.countP_sent {o : Origination} {limit : Byte} {done todo : List IflEntry}
    (h : FlightSplit o limit done todo) : o.flight.countP (fun f => f.state = .sent) = done.length := by
  have h1 : done.countP (fun f => f.state = .sent) = done.length :=
    List.countP_eq_length.2 fun f hf => by simp [h.sent f hf]
  have h2 : todo.countP (fun f => f.state = .sent) = 0 :=
    List.countP_eq_zero.2 fun f hf => by simp [h.awaiting f hf]
  rw [h.flight, List.countP_append, h1, h2, Nat.add_zero]

theorem flightLaw_of_split {s : State} {done todo : List IflEntry}
    (h : FlightSplit s.orig s.node.params.retryLimit done todo) : FlightLaw s := by
  have hc := h.countP_sent
  refine ⟨h.room, (numbered_iff _ _).1 h.numbered, fun i => ?_, ?_, h.older, h.limited, fun hb => ?_⟩
  · rw [hc]
    have hi : i.val < (done ++ todo).length := h.flight ▸ i.isLt
    have hg : s.orig.flight[i] = (done ++ todo)[i.val] := by
      simp only [Fin.getElem_fin, h.flight]
    rw [hg]
    constructor
    · intro hs
      by_contra hn
      rw [List.getElem_append_right (Nat.not_lt.1 hn)] at hs
      rw [h.awaiting _ (List.getElem_mem _)] at hs
      cases hs
    · intro hlt
      rw [List.getElem_append_left hlt]
      exact h.sent _ (List.getElem_mem _)
  · rw [hc, h.pointer, h.flight, List.getElem?_append_right (Nat.le_refl _), Nat.sub_self, List.head?_eq_getElem?]
  · obtain ⟨ht, hd⟩ := h.backoff hb
    refine ⟨fun hnil => ?_, by rw [hc, hd]; rfl⟩
    rw [h.flight, hd] at hnil
    exact ht hnil

theorem split_of_flightLaw {s : State} (h : FlightLaw s) : FlightOk s.orig s.node.params.retryLimit := by
  obtain ⟨hroom, hseq, hsent, hptr, holder, hlim, hback⟩ := h
  let n := s.orig.flight.countP fun f => f.state = .sent
  refine ⟨s.orig.flight.take n, s.orig.flight.drop n, (List.take_append_drop _ _).symm, fun f hf => ?_, fun f hf => ?_,
    (numbered_iff _ _).2 hseq, hroom, ?_, holder, hlim, fun hb => ?_⟩
  · obtain ⟨i, hi, rfl⟩ := List.mem_take_iff_getElem.1 hf
    exact (hsent ⟨i, (Nat.lt_min.1 hi).2⟩).2 (Nat.lt_min.1 hi).1
  · obtain ⟨i, hi, rfl⟩ := List.mem_drop_iff_getElem.1 hf
    cases hst : (s.orig.flight[n + i]).state with
    | awaitingResend => rfl
    | sent =>
      have := (hsent ⟨n + i, by omega⟩).1 hst
      simp only at this
      omega
  · rw [List.head?_drop]
    exact hptr
  · obtain ⟨hne, h0⟩ := hback hb
    have hn : n = 0 := h0
    rw [hn]
    exact ⟨hne, rfl⟩

theorem flightLaw_iff (s : State) : FlightLaw s ↔ FlightOk s.orig s.node.params.retryLimit :=
  ⟨split_of_flightLaw, fun ⟨_, _, h⟩ => flightLaw_of_split h⟩

section Flight
variable {o : Origination} {limit : Byte} {done todo : List IflEntry}

/-- The law is about the list, next_seq, the pointer and the backoff. -/
theorem FlightOk.congr {p : Origination} (h : FlightOk o limit) (hf : p.flight = o.flight)
    (hn : p.nextSeq = o.nextSeq) (hr : p.resend = o.resend) (hb : p.backoff = o.backoff) : FlightOk p limit := by
  obtain ⟨done, todo, h⟩ := h
  exact ⟨done, todo, hf.trans h.flight, h.sent, h.awaiting, by rw [hf, hn]; exact h.numbered, by rw [hf]; exact h.room,
    hr.trans h.pointer, by rw [hf]; exact h.older, by rw [hf]; exact h.limited, by rw [hb]; exact h.backoff⟩

theorem flightOk_nil {o : Origination} (limit : Byte) (hf : o.flight = []) (hr : o.resend = none)
    (hb : o.backoff = none) : FlightOk o limit :=
  ⟨[], [], hf, by simp, by simp, by rw [hf]; trivial, by simp [hf], hr, by simp [hf], by simp [hf], by simp [hb]⟩

theorem FlightOk.of_nil (h : FlightOk o limit) (hf : o.flight = []) (limit' : Byte) : FlightOk o limit' := by
  obtain ⟨done, todo, h⟩ := h
  have hnil : done = [] ∧ todo = [] := by simpa [hf] using h.flight.symm
  refine flightOk_nil limit' hf (by rw [h.pointer, hnil.2]; rfl) ?_
  cases hb : o.backoff with
  | none => rfl
  | some t => exact absurd hnil.2 (h.backoff (by simp [hb])).1

/-- The end of the backoff (R92). -/
theorem FlightSplit.endBackoff (h : FlightSplit o limit done todo) :
    FlightSplit { o with backoff := none } limit done todo :=
  ⟨h.flight, h.sent, h.awaiting, h.numbered, h.room, h.pointer, h.older, h.limited, fun hb => by cases hb⟩

/-- A go-back of a list whose head has retries left: everything awaits its resend (R91). -/
theorem FlightOk.goBack (h : FlightOk o limit) {x : IflEntry} {rest : List IflEntry} (hf : o.flight = x :: rest)
    (hx : x.retry ≠ limit) {b : Option Time} :
    FlightOk { o with flight := o.flight.map IflEntry.goBack, resend := o.flight.head?.map IflEntry.seq, backoff := b }
      limit := by
  obtain ⟨done, todo, h⟩ := h
  have hlt (f : IflEntry) (hm : f ∈ o.flight) : f.retry.toNat < limit.toNat := by
    have hxl : x.retry.toNat < limit.toNat := by
      have h1 := h.limited x (by simp [hf])
      have h2 : x.retry.toNat ≠ limit.toNat := fun he => hx (BitVec.eq_of_toNat_eq he)
      omega
    have hall := h.older
    rw [hf] at hm hall
    rcases List.mem_cons.1 hm with rfl | hm
    · exact hxl
    · have := List.rel_of_pairwise_cons hall hm
      omega
  have hsucc (f : IflEntry) (hm : f ∈ o.flight) : (f.retry + 1).toNat = f.retry.toNat + 1 := by
    have h1 := hlt f hm
    have h2 := limit.isLt
    rw [BitVec.toNat_add, Nat.mod_eq_of_lt]
    · rfl
    · change f.retry.toNat + 1 < 256
      omega
  refine ⟨[], o.flight.map IflEntry.goBack, rfl, by simp, ?_, ?_, by simpa using h.room, ?_, ?_, ?_, fun _ => ?_⟩
  · intro f hm
    obtain ⟨g, -, rfl⟩ := List.mem_map.1 hm
    rfl
  · refine (numbered_congr ?_).1 h.numbered
    simp [IflEntry.goBack, Function.comp_def]
  · rw [List.head?_map, Option.map_map]
    rfl
  · refine List.pairwise_map.2 (h.older.imp_of_mem fun {f g} hfm hgm hr => ?_)
    change (g.retry + 1).toNat ≤ (f.retry + 1).toNat
    rw [hsucc f hfm, hsucc g hgm]
    omega
  · intro f hm
    obtain ⟨g, hg, rfl⟩ := List.mem_map.1 hm
    change (g.retry + 1).toNat ≤ _
    rw [hsucc g hg]
    exact hlt g hg
  · simp [hf]

/-- The head, when SENT, may be retired (R87). -/
theorem FlightOk.retire (h : FlightOk o limit) {x : IflEntry} {rest : List IflEntry} (hf : o.flight = x :: rest)
    (hx : x.state = .sent) : FlightOk { o with flight := rest } limit := by
  obtain ⟨done, todo, h⟩ := h
  cases done with
  | nil =>
    have hm : x ∈ todo := by
      have := h.flight
      rw [hf, List.nil_append] at this
      simp [← this]
    rw [h.awaiting x hm] at hx
    cases hx
  | cons y done =>
    have hrest : rest = done ++ todo := by
      have := h.flight
      rw [hf, List.cons_append, List.cons.injEq] at this
      exact this.2
    have hnum := h.numbered
    have hold := h.older
    have hroom := h.room
    rw [hf] at hnum hold hroom
    exact ⟨done, todo, hrest, fun f hm => h.sent f (by simp [hm]), h.awaiting, hnum.2, Nat.le_of_succ_le hroom,
      h.pointer, hold.of_cons, fun f hm => h.limited f (by rw [hf]; simp [hm]), fun hb => absurd (h.backoff hb).2 (by simp)⟩

/-- Where the pointer is present it names the first entry that awaits its resend (R79). -/
theorem FlightSplit.todo_of_resend (h : FlightSplit o limit done todo) {q : Byte} (hq : o.resend = some q) :
    ∃ f rest, todo = f :: rest ∧ f.seq = q := by
  have hp := h.pointer
  rw [hq] at hp
  cases todo with
  | nil => cases hp
  | cons f rest => exact ⟨f, rest, rfl, (Option.some.inj hp).symm⟩

theorem FlightSplit.todo_nil (h : FlightSplit o limit done todo) (hr : o.resend = none) : todo = [] := by
  have hp := h.pointer
  rw [hr] at hp
  cases todo with
  | nil => rfl
  | cons f rest => cases hp

theorem FlightSplit.getElem_done (h : FlightSplit o limit done (f :: rest)) :
    o.flight[done.length]? = some f := by
  rw [h.flight, List.getElem?_append_right (Nat.le_refl _), Nat.sub_self]
  rfl

theorem FlightSplit.position {f : IflEntry} {rest : List IflEntry} (h : FlightSplit o limit done (f :: rest)) :
    flightPosition o.flight f.seq = some done.length := by
  obtain ⟨hi, hg⟩ := List.getElem?_eq_some_iff.1 h.getElem_done
  exact (flightPosition_of_numbered h.numbered h.room _).2 ⟨hi, by rw [hg]⟩

/-- The entry the pointer names. -/
theorem FlightSplit.resendEntry_eq {f : IflEntry} {rest : List IflEntry} (h : FlightSplit o limit done (f :: rest)) :
    resendEntry o = some f := by
  simp [resendEntry, h.pointer, h.position, h.getElem_done]

/-- The resend of the entry at the pointer (R83). -/
theorem FlightSplit.resend {f : IflEntry} {rest : List IflEntry} (h : FlightSplit o limit done (f :: rest))
    (hb : o.backoff = none) (now : Time) :
    FlightSplit { o with
      flight := o.flight.set done.length { f with state := .sent, departure := now }
      resend := (o.flight[done.length + 1]?).map IflEntry.seq } limit
      (done ++ [{ f with state := .sent, departure := now }]) rest := by
  have hset : o.flight.set done.length { f with state := .sent, departure := now } =
      done ++ { f with state := .sent, departure := now } :: rest := by
    rw [h.flight, List.set_append_right _ _ (Nat.le_refl _), Nat.sub_self]
    rfl
  refine ⟨by simp [hset], fun g hg => ?_, fun g hg => h.awaiting g (by simp [hg]), ?_, by simpa using h.room, ?_, ?_, ?_,
    fun hb' => by simp [hb] at hb'⟩
  · rcases List.mem_append.1 hg with hg | hg
    · exact h.sent g hg
    · rw [List.mem_singleton.1 hg]
  · refine (numbered_congr ?_).1 h.numbered
    change o.flight.map IflEntry.seq = (o.flight.set done.length _).map IflEntry.seq
    rw [hset, h.flight, List.map_append, List.map_append, List.map_cons, List.map_cons]
  · simp only [h.flight]
    rw [List.getElem?_append_right (by omega), Nat.add_sub_cancel_left, List.getElem?_cons_succ, List.head?_eq_getElem?]
  · have hold := h.older
    rw [h.flight] at hold
    simp only [hset]
    rw [List.pairwise_append, List.pairwise_cons] at hold ⊢
    obtain ⟨h1, ⟨h2, h3⟩, h4⟩ := hold
    refine ⟨h1, ⟨h2, h3⟩, fun a ha b hm => ?_⟩
    rcases List.mem_cons.1 hm with rfl | hm
    · exact h4 a ha f (by simp)
    · exact h4 a ha b (by simp [hm])
  · intro g hg
    simp only [hset] at hg
    rcases List.mem_append.1 hg with hg | hg
    · exact h.limited g (by simp [h.flight, hg])
    · rcases List.mem_cons.1 hg with rfl | hg
      · exact h.limited f (by simp [h.flight])
      · exact h.limited g (by simp [h.flight, hg])

/-- A departure with no resend due (R51, R81). -/
theorem FlightOk.depart (h : FlightOk o limit) (hr : o.resend = none) (hl : o.flight.length < 16) (p : PqEntry)
    (now : Time) :
    FlightOk { o with flight := o.flight ++ [p.depart o.nextSeq now], nextSeq := o.nextSeq + 1 } limit := by
  obtain ⟨done, todo, h⟩ := h
  have ht := h.todo_nil hr
  subst ht
  have hf : o.flight = done := by simpa using h.flight
  refine ⟨done ++ [p.depart o.nextSeq now], [], by simp [hf], fun g hg => ?_, by simp,
    numbered_append_single h.numbered rfl, by simpa using hl, hr, ?_, fun g hg => ?_,
    fun hb => absurd rfl (h.backoff hb).1⟩
  · rcases List.mem_append.1 hg with hg | hg
    · exact h.sent g hg
    · rw [List.mem_singleton.1 hg]; rfl
  · refine List.pairwise_append.2 ⟨h.older, by simp, fun a _ b hb => ?_⟩
    rw [List.mem_singleton.1 hb]
    exact Nat.zero_le _
  · rcases List.mem_append.1 hg with hg | hg
    · exact h.limited g hg
    · rw [List.mem_singleton.1 hg]
      exact Nat.zero_le _

end Flight

end Sys2Proof.Machine
end

section
/-! SUPPORT. The laws of the state block by block: what one block has to keep for itself, tied to the laws of
Safety.lean by `lawful_iff`, and what each change of a block makes of it. -/

namespace Sys2Proof.Machine

/-! ## The Publish Queue (R37, R38) -/

/-- The Publish Queue's share of the laws. -/
structure PqOk (q : PublishQueue) : Prop where
  total : q.total ≤ 32
  low : q.low ≤ 28
  listed : ∀ c, ∀ p ∈ q.classList c, p.cls = c ∧ p.mask ≠ 0
  held : ∀ r ∈ q.held, r.lanes ≠ 0

section Publish
variable {q : PublishQueue}

theorem PublishQueue.low_eq (q : PublishQueue) :
    q.low = (q.classList 0).length + (q.classList 1).length + (q.classList 2).length := rfl

theorem PublishQueue.total_eq_low (q : PublishQueue) : q.total = q.low + (q.classList 3).length := rfl

/-- An empty queue has empty class lists. -/
theorem PublishQueue.total_eq_zero_iff : q.total = 0 ↔ ∀ c, q.classList c = [] := by
  rw [PublishQueue.total_eq_low, PublishQueue.low_eq]
  constructor
  · intro h c
    have hc : (q.classList c).length = 0 := by
      fin_cases c
      all_goals
        dsimp only [Fin.zero_eta, Fin.mk_one, Fin.reduceFinMk]
        omega
    exact List.eq_nil_of_length_eq_zero hc
  · intro h
    rw [h 0, h 1, h 2, h 3]
    rfl

/-- The counts after a class list is replaced. -/
theorem PublishQueue.total_setClassList (q : PublishQueue) (c : PrioClass) (l : List PqEntry) :
    (q.setClassList c l).total + (q.classList c).length = q.total + l.length := by
  simp only [PublishQueue.total, PublishQueue.low]
  fin_cases c
  all_goals
    simp only [PublishQueue.setClassList, PublishQueue.classList]
    omega

theorem PublishQueue.low_setClassList (q : PublishQueue) {c : PrioClass} (hc : c ≠ 3) (l : List PqEntry) :
    (q.setClassList c l).low + (q.classList c).length = q.low + l.length := by
  simp only [PublishQueue.low]
  fin_cases c
  on_goal 4 => exact absurd rfl hc
  all_goals
    simp only [PublishQueue.setClassList, PublishQueue.classList]
    omega

/-- A class list replaced by one that is no longer, or by a longer one where the reservation allows (R41). -/
theorem PqOk.setClassList (h : PqOk q) {c : PrioClass} {l : List PqEntry} (hl : ∀ p ∈ l, p.cls = c ∧ p.mask ≠ 0)
    (hlen : l.length ≤ (q.classList c).length ∨ (l.length = (q.classList c).length + 1 ∧ q.hasRoom c = true)) :
    PqOk (q.setClassList c l) := by
  have ht := q.total_setClassList c l
  have htot := h.total
  have hlow := h.low
  have room (hr : q.hasRoom c = true) : q.total < 32 ∧ (c = 3 ∨ q.low < 28) := by
    simpa [PublishQueue.hasRoom] using hr
  refine ⟨?_, ?_, fun d p hp => ?_, ?_⟩
  · rcases hlen with hlen | ⟨hlen, hr⟩
    · omega
    · have := (room hr).1
      omega
  · by_cases hc : c = 3
    · subst hc
      exact h.low
    · have hw := q.low_setClassList hc l
      rcases hlen with hlen | ⟨hlen, hr⟩
      · omega
      · have := (room hr).2.resolve_left hc
        omega
  · by_cases hd : d = c
    · subst hd
      rw [PublishQueue.classList_setClassList_self] at hp
      exact hl p hp
    · rw [q.classList_setClassList_ne l hd] at hp
      exact h.listed d p hp
  · rw [PublishQueue.setClassList_held]
    exact h.held

theorem PqOk.withHeld (h : PqOk q) {r : Option CaptureRequest} (hr : ∀ x ∈ r, x.lanes ≠ 0) :
    PqOk { q with held := r } :=
  ⟨h.total, h.low, h.listed, hr⟩

theorem pqOk_emptied (h : PqOk q) : PqOk { q with class0 := [], class1 := [], class2 := [], class3 := [] } := by
  refine ⟨Nat.zero_le _, Nat.zero_le _, fun c p hp => ?_, h.held⟩
  have hn : PublishQueue.classList { q with class0 := [], class1 := [], class2 := [], class3 := [] } c = [] := by
    fin_cases c <;> rfl
  rw [hn] at hp
  cases hp

/-- The offered entry is the head of its class list, and the departure leaves the tail of that list (R50, R51). -/
theorem PublishQueue.offer_cases {p : PqEntry} (h : q.offer = some p) :
    ∃ c rest, q.classList c = p :: rest ∧ q.dropOffer = q.setClassList c rest := by
  obtain ⟨l0, l1, l2, l3, r⟩ := q
  cases l3 with
  | cons x l3 => cases h; exact ⟨3, l3, rfl, rfl⟩
  | nil => cases l2 with
    | cons x l2 => cases h; exact ⟨2, l2, rfl, rfl⟩
    | nil => cases l1 with
      | cons x l1 => cases h; exact ⟨1, l1, rfl, rfl⟩
      | nil => cases l0 with
        | cons x l0 => cases h; exact ⟨0, l0, rfl, rfl⟩
        | nil => cases h

theorem PqOk.dropOffer (h : PqOk q) {p : PqEntry} (hp : q.offer = some p) : PqOk q.dropOffer := by
  obtain ⟨c, rest, hc, hd⟩ := PublishQueue.offer_cases hp
  rw [hd]
  refine h.setClassList (fun x hx => h.listed c x ?_) (.inl ?_)
  · rw [hc]
    exact List.mem_cons_of_mem _ hx
  · rw [hc]
    simp

/-- The lanes of a position are a part of the span mask. -/
theorem spanLanes_ne_zero {k : Position} {l : Lanes} (hl : l ≠ 0) : spanLanes k l ≠ 0 := by
  intro h
  apply hl
  ext i hi
  have hk := k.isLt
  have hb := congrArg (fun m : SpanMask => m.getLsbD (4 * k.val + i)) h
  simp only [spanLanes, BitVec.getLsbD_shiftLeft, BitVec.getLsbD_setWidth] at hb
  have h1 : 4 * k.val + i < 16 := by omega
  have h2 : i < 16 := by omega
  simpa [h1, h2, BitVec.getLsbD_eq_getElem hi] using hb

theorem mergeInto_mask_ne_zero {r : CaptureRequest} {t : PqEntry} (h : t.mask ≠ 0) : (r.mergeInto t).mask ≠ 0 := by
  intro h0
  apply h
  ext i hi
  have hb := congrArg (fun m : SpanMask => m.getLsbD i) h0
  simp only [CaptureRequest.mergeInto, BitVec.getLsbD_or] at hb
  have := (Bool.or_eq_false_iff.1 (hb.trans (by simp))).1
  simpa [BitVec.getLsbD_eq_getElem hi] using this

theorem PqOk.created (h : PqOk q) {r : CaptureRequest} (hr : r.lanes ≠ 0) (hroom : q.hasRoom r.cls = true) :
    PqOk (q.setClassList r.cls (q.classList r.cls ++ [r.newEntry])) := by
  refine h.setClassList (fun p hp => ?_) (.inr ⟨by simp, hroom⟩)
  rcases List.mem_append.1 hp with hp | hp
  · exact h.listed _ p hp
  · rw [List.mem_singleton.1 hp]
    exact ⟨rfl, spanLanes_ne_zero hr⟩

theorem PqOk.combined (h : PqOk q) {r : CaptureRequest} {t : PqEntry} (ht : (q.classList r.cls).getLast? = some t) :
    PqOk (q.setClassList r.cls ((q.classList r.cls).dropLast ++ [r.mergeInto t])) := by
  have hmem := List.mem_of_getLast? ht
  have hlen : 0 < (q.classList r.cls).length := List.length_pos_of_mem hmem
  refine h.setClassList (fun p hp => ?_) (.inl ?_)
  · rcases List.mem_append.1 hp with hp | hp
    · exact h.listed _ p (List.mem_of_mem_dropLast hp)
    · rw [List.mem_singleton.1 hp]
      obtain ⟨hc, hm⟩ := h.listed _ t hmem
      exact ⟨hc, mergeInto_mask_ne_zero hm⟩
  · simp only [List.length_append, List.length_dropLast, List.length_singleton]
    omega

end Publish

/-! ## The Apply Queue (R124, R125) -/

/-- The Apply Queue's share of the laws. -/
structure AqOk (l : List AqEntry) : Prop where
  room : l.length ≤ 24
  next : ∀ a ∈ l, a.mask ≠ 0 ∧ present a.mask a.next = true
  waiting : ∀ a ∈ l.tail, a.state = .waiting

section ApplyQueue
variable {l rest : List AqEntry} {a : AqEntry}

theorem aqOk_nil : AqOk [] := ⟨Nat.zero_le _, by simp, by simp⟩

/-- The head may be replaced by one whose next position is present. -/
theorem AqOk.setHead (h : AqOk (a :: rest)) {b : AqEntry} (hm : b.mask ≠ 0) (hb : present b.mask b.next = true) :
    AqOk (b :: rest) :=
  ⟨h.room, fun x hx => (List.mem_cons.1 hx).elim (fun hx => hx ▸ ⟨hm, hb⟩) fun hx => h.next x (List.mem_cons_of_mem _ hx),
    h.waiting⟩

theorem AqOk.markHeadWriting (h : AqOk l) : AqOk (markHeadWriting l) := by
  cases l with
  | nil => exact h
  | cons a rest =>
    obtain ⟨hm, hn⟩ := h.next a List.mem_cons_self
    exact h.setHead hm hn

theorem AqOk.removeHead (h : AqOk (a :: rest)) : AqOk rest := by
  refine ⟨(Nat.le_succ _).trans h.room, fun x hx => h.next x (List.mem_cons_of_mem _ hx), fun x hx => ?_⟩
  exact h.waiting x (List.mem_of_mem_tail hx)

theorem AqOk.filter (h : AqOk l) (p : AqEntry → Bool) : AqOk (l.filter p) := by
  refine ⟨(List.length_filter_le _ _).trans h.room, fun x hx => h.next x (List.mem_filter.1 hx).1, fun x hx => ?_⟩
  cases l with
  | nil => cases hx
  | cons a rest =>
    refine h.waiting x ?_
    rw [List.filter_cons] at hx
    split at hx
    · exact (List.mem_filter.1 hx).1
    · exact (List.mem_filter.1 (List.mem_of_mem_tail hx)).1

theorem AqOk.append (h : AqOk l) (hl : l.length < 24) (hm : a.mask ≠ 0) (hn : present a.mask a.next = true)
    (hw : a.state = .waiting) : AqOk (l ++ [a]) := by
  refine ⟨by simpa using hl, fun x hx => ?_, fun x hx => ?_⟩
  · rcases List.mem_append.1 hx with hx | hx
    · exact h.next x hx
    · rw [List.mem_singleton.1 hx]
      exact ⟨hm, hn⟩
  · cases l with
    | nil => cases hx
    | cons b rest =>
      rcases List.mem_append.1 hx with hx | hx
      · exact h.waiting x hx
      · rw [List.mem_singleton.1 hx]
        exact hw

theorem mem_presentPositions {m : SpanMask} {k : Position} : k ∈ presentPositions m ↔ present m k = true := by
  have hall : k ∈ allPositions := by revert k; decide
  simp [presentPositions, hall]

theorem present_nextPresent {m : SpanMask} {j k : Position} (h : nextPresent m j = some k) : present m k = true :=
  mem_presentPositions.1 (List.mem_of_find?_eq_some h)

theorem exists_present {m : SpanMask} (h : m ≠ 0) : ∃ k, present m k = true := by
  by_contra hn
  push Not at hn
  apply h
  ext i hi
  have hk := hn ⟨i / 4, by omega⟩
  simp only [present, bne_iff_ne, ne_eq, Decidable.not_not] at hk
  have hb := congrArg (fun l : Lanes => l.getLsbD (i % 4)) hk
  have hm : i % 4 < 4 := Nat.mod_lt _ (by decide)
  have hi4 : 4 * (i / 4) + i % 4 = i := Nat.div_add_mod i 4
  simpa [maskLanes, BitVec.getLsbD_extractLsb', hm, hi4, BitVec.getLsbD_eq_getElem hi] using hb

theorem present_lowestPresent {m : SpanMask} (h : m ≠ 0) : present m (lowestPresent m) = true := by
  obtain ⟨k, hk⟩ := exists_present h
  unfold lowestPresent
  cases hl : presentPositions m with
  | nil => exact absurd (mem_presentPositions.2 hk) (by simp [hl])
  | cons j rest => exact mem_presentPositions.1 (by simp [hl])

end ApplyQueue

/-! ## The Host Path (R1, R14, R44, R132) -/

/-- Nothing is signalled to the host and HD is not driven. -/
structure HostPath.Quiet (h : HostPath) : Prop where
  delay : h.refusedDelay = false
  herr : h.herr = false
  hd : h.hd = none

/-- The five shapes of the Host Path, with the held request and whom the memory port serves. -/
inductive HostOk (h : HostPath) (held : Option CaptureRequest) (granted : Option Requester) : Prop
  | free (hp : h.path = .free) (hc : h.cycle = none) (hh : h.hold = .noHold) (hr : held = none)
      (hg : granted ≠ some .host) (hd : h.hd.isSome = true → h.presented.isSome = true ∧ h.strobeHighSince = false)
  | reading (c : CycleRecord) (hp : h.path = .holding) (hc : h.cycle = some c) (hh : h.hold = .readHold)
      (hs : c.sound) (hdir : c.dir = .read) (hr : held = none) (hg : granted ≠ some .host) (hq : h.Quiet)
  | publishing (c : CycleRecord) (r : CaptureRequest) (hp : h.path = .holding) (hc : h.cycle = some c)
      (hh : h.hold = .publishHold) (hs : c.sound) (hdir : c.dir = .write) (hcls : c.cls = .publish) (hr : held = some r)
      (hw : c.window = some r.window) (hg : granted ≠ some .host) (hq : h.Quiet)
  | requesting (c : CycleRecord) (hp : h.path = .requesting) (hc : h.cycle = some c) (hh : h.hold = .noHold)
      (hs : c.sound) (hr : held = none) (hg : granted ≠ some .host) (hq : h.Quiet)
  | memory (c : CycleRecord) (hp : h.path = .memory) (hc : h.cycle = some c) (hh : h.hold = .noHold)
      (hs : c.sound) (hr : held = none) (hg : granted = some .host) (hq : h.Quiet)

/-- Whom the memory port serves (R132). -/
def State.granted (s : State) : Option Requester := s.arb.cycle.map MemCycle.grant

theorem hostOk_iff (s : State) : HostOk s.host s.pq.held s.granted ↔ HostLaw s ∧ DriveLaw s := by
  constructor
  · intro h
    cases h with
    | free hp hc hh hr hg hd =>
      refine ⟨?_, fun h => ⟨hp, hd h⟩⟩
      have hg' : ¬s.arb.cycle.map MemCycle.grant = some .host := hg
      simp [HostLaw, hp, hc, hh, hr, hg']
    | reading c hp hc hh hs hdir hr hg hq =>
      have hg' : ¬s.arb.cycle.map MemCycle.grant = some .host := hg
      obtain ⟨h1, h2, h3⟩ := hq
      refine ⟨⟨by simp [hp, hc], by simp [hp, hh], ?_, ?_, by simp [hh], by simp [hr, hh], by simp [hr],
        by simpa [hp] using hg', by simp [h1], by simp [h2]⟩, fun hd => by simp [h3] at hd⟩
      · rintro x hx
        cases hc.symm.trans hx
        exact hs
      · rintro - x hx
        cases hc.symm.trans hx
        exact hdir
    | publishing c r hp hc hh hs hdir hcls hr hw hg hq =>
      have hg' : ¬s.arb.cycle.map MemCycle.grant = some .host := hg
      obtain ⟨h1, h2, h3⟩ := hq
      refine ⟨⟨by simp [hp, hc], by simp [hp, hh], ?_, by simp [hh], ?_, by simp [hr, hh], ?_, by simpa [hp] using hg',
        by simp [h1], by simp [h2]⟩, fun hd => by simp [h3] at hd⟩
      · rintro x hx
        cases hc.symm.trans hx
        exact hs
      · rintro - x hx
        cases hc.symm.trans hx
        exact ⟨hdir, hcls⟩
      · rintro y hy x hx
        cases hc.symm.trans hx
        cases hr.symm.trans hy
        exact hw
    | requesting c hp hc hh hs hr hg hq =>
      have hg' : ¬s.arb.cycle.map MemCycle.grant = some .host := hg
      obtain ⟨h1, h2, h3⟩ := hq
      refine ⟨⟨by simp [hp, hc], by simp [hp, hh], ?_, by simp [hh], by simp [hh], by simp [hr, hh], by simp [hr],
        by simpa [hp] using hg', by simp [h1], by simp [h2]⟩, fun hd => by simp [h3] at hd⟩
      rintro x hx
      cases hc.symm.trans hx
      exact hs
    | memory c hp hc hh hs hr hg hq =>
      have hg' : s.arb.cycle.map MemCycle.grant = some .host := hg
      obtain ⟨h1, h2, h3⟩ := hq
      refine ⟨⟨by simp [hp, hc], by simp [hp, hh], ?_, by simp [hh], by simp [hh], by simp [hr, hh], by simp [hr],
        by simpa [hp] using hg', by simp [h1], by simp [h2]⟩, fun hd => by simp [h3] at hd⟩
      rintro x hx
      cases hc.symm.trans hx
      exact hs
  · rintro ⟨⟨hfree, hhold, hsound, hread, hpub, hheld, hwin, hmem, hdel, herr⟩, hdrive⟩
    have none_of (h : s.host.hold ≠ .publishHold) : s.pq.held = none := by
      cases hh : s.pq.held with
      | none => rfl
      | some r => exact absurd (hheld.1 (by simp [hh])) h
    have quiet (h : s.host.path ≠ .free) : s.host.Quiet := by
      refine ⟨?_, ?_, ?_⟩
      · exact Bool.eq_false_iff.2 fun hd => h (hdel hd)
      · exact Bool.eq_false_iff.2 fun hd => h (herr hd)
      · cases hh : s.host.hd with
        | none => rfl
        | some d => exact absurd (hdrive (by simp [hh])).1 h
    have ungranted (h : s.host.path ≠ .memory) : s.granted ≠ some .host := fun hg => h (hmem.2 hg)
    have nohold (h : s.host.path ≠ .holding) : s.host.hold = .noHold := by
      by_contra hn
      exact h (hhold.2 hn)
    cases hc : s.host.cycle with
    | none =>
      have hp := hfree.2 hc
      have hh := nohold (by simp [hp])
      exact .free hp hc hh (none_of (by simp [hh])) (ungranted (by simp [hp])) fun hd => (hdrive hd).2
    | some c =>
      have hs := hsound c hc
      cases hp : s.host.path with
      | free => exact absurd (hfree.1 hp) (by simp [hc])
      | holding =>
        cases hh : s.host.hold with
        | noHold => exact absurd hh (hhold.1 hp)
        | readHold =>
          exact .reading c hp hc hh hs (hread hh c hc) (none_of (by simp [hh])) (ungranted (by simp [hp]))
            (quiet (by simp [hp]))
        | publishHold =>
          obtain ⟨r, hr⟩ := Option.isSome_iff_exists.1 (hheld.2 hh)
          obtain ⟨hdir, hcls⟩ := hpub hh c hc
          exact .publishing c r hp hc hh hs hdir hcls hr (hwin r hr c hc) (ungranted (by simp [hp]))
            (quiet (by simp [hp]))
      | requesting =>
        have hh := nohold (by simp [hp])
        exact .requesting c hp hc hh hs (none_of (by simp [hh])) (ungranted (by simp [hp])) (quiet (by simp [hp]))
      | memory =>
        have hh := nohold (by simp [hp])
        exact .memory c hp hc hh hs (none_of (by simp [hh])) (hmem.1 hp) (quiet (by simp [hp]))

section HostShapes
variable {h h' : HostPath} {held : Option CaptureRequest} {granted : Option Requester}

/-- A change of the pins alone, HD apart. -/
theorem HostOk.congr (k : HostOk h held granted) (hp : h'.path = h.path) (hc : h'.cycle = h.cycle)
    (hh : h'.hold = h.hold) (hq : h.Quiet → h'.Quiet)
    (hd : (h.hd.isSome = true → h.presented.isSome = true ∧ h.strobeHighSince = false) →
      h'.hd.isSome = true → h'.presented.isSome = true ∧ h'.strobeHighSince = false) : HostOk h' held granted := by
  cases k with
  | free a b c d e f => exact .free (hp.trans a) (hc.trans b) (hh.trans c) d e (hd f)
  | reading x a b c d e f g i => exact .reading x (hp.trans a) (hc.trans b) (hh.trans c) d e f g (hq i)
  | publishing x r a b c d e f g i j k =>
    exact .publishing x r (hp.trans a) (hc.trans b) (hh.trans c) d e f g i j (hq k)
  | requesting x a b c d e f g => exact .requesting x (hp.trans a) (hc.trans b) (hh.trans c) d e f (hq g)
  | memory x a b c d e f g => exact .memory x (hp.trans a) (hc.trans b) (hh.trans c) d e f (hq g)

/-- A FREE path that is quiet takes a cycle that posts its request (R13). -/
theorem hostOk_request {c : CycleRecord} (hs : c.sound) (hr : held = none) (hg : granted ≠ some .host)
    (hq : h.refusedDelay = false ∧ h.hd = none) :
    HostOk { h with path := .requesting, cycle := some c, hold := .noHold, herr := false } held granted :=
  .requesting c rfl rfl rfl hs hr hg ⟨hq.1, rfl, hq.2⟩

/-- A held write goes on to its memory request with the class given (R44 to R49). -/
theorem HostOk.endHold (k : HostOk h held granted) (hh : h.hold = .publishHold) {cls : HostClass} {w : Option WinIdx}
    (hw : w = none ↔ cls = .plain) (hcls : cls ≠ .refused) :
    HostOk { h with path := .requesting, hold := .noHold
                    cycle := h.cycle.map fun c => { c with cls := cls, window := w } } none granted := by
  cases k with
  | free _ _ c => cases hh.symm.trans c
  | reading _ _ _ c => cases hh.symm.trans c
  | requesting _ _ _ c => cases hh.symm.trans c
  | memory _ _ _ c => cases hh.symm.trans c
  | publishing c r hp hc _ hs hdir _ hr _ hg hq =>
    refine .requesting { c with cls := cls, window := w } rfl (by simp [hc]) rfl ?_ rfl hg ⟨hq.delay, hq.herr, hq.hd⟩
    exact ⟨hs.1, fun hd => by simp [hdir] at hd, hw, hcls⟩

/-- A held read goes on to its memory request (R135). -/
theorem HostOk.endReadHold (k : HostOk h held granted) (hh : h.hold = .readHold) :
    HostOk { h with path := .requesting, hold := .noHold } held granted := by
  cases k with
  | free _ _ c => cases hh.symm.trans c
  | publishing _ _ _ _ c => cases hh.symm.trans c
  | requesting _ _ _ c => cases hh.symm.trans c
  | memory _ _ _ c => cases hh.symm.trans c
  | reading c hp hc _ hs _ hr hg hq => exact .requesting c rfl hc rfl hs hr hg ⟨hq.delay, hq.herr, hq.hd⟩

/-- A request is granted (R133). -/
theorem HostOk.grant (k : HostOk h held granted) (hp : h.path = .requesting) :
    HostOk { h with path := .memory } held (some .host) := by
  cases k with
  | free a => cases hp.symm.trans a
  | reading _ a => cases hp.symm.trans a
  | publishing _ _ a => cases hp.symm.trans a
  | memory _ a => cases hp.symm.trans a
  | requesting c _ hc hh hs hr _ hq => exact .memory c rfl hc hh hs hr rfl ⟨hq.delay, hq.herr, hq.hd⟩

/-- The port serves the Apply Queue, or no one, while the path is not in MEMORY (R132). -/
theorem HostOk.regrant (k : HostOk h held granted) (hg : granted ≠ some .host) {granted' : Option Requester}
    (hg' : granted' ≠ some .host) : HostOk h held granted' := by
  cases k with
  | free a b c d _ f => exact .free a b c d hg' f
  | reading x a b c d e f _ i => exact .reading x a b c d e f hg' i
  | publishing x r a b c d e f g i _ k => exact .publishing x r a b c d e f g i hg' k
  | requesting x a b c d e _ g => exact .requesting x a b c d e hg' g
  | memory x _ _ _ _ _ g => exact absurd g hg

/-- The cycle in MEMORY is complete (R14). -/
theorem HostOk.complete (k : HostOk h held (some .host)) {d : Option Word} {r : Option Word} {n : Nat} :
    HostOk { h with path := .free, cycle := none, hold := .noHold, herr := false
                    hd := if strobeHeld h then d else none, returned := r, completions := n } held none := by
  cases k with
  | free _ _ _ _ g => exact absurd rfl g
  | reading _ _ _ _ _ _ _ g => exact absurd rfl g
  | publishing _ _ _ _ _ _ _ _ _ _ g => exact absurd rfl g
  | requesting _ _ _ _ _ _ g => exact absurd rfl g
  | memory c _ _ _ _ hr =>
    refine .free rfl rfl rfl hr (by simp) fun hd => ?_
    dsimp only at hd ⊢
    split at hd
    next hs => simpa [strobeHeld] using hs
    next => cases hd

/-- The fall of RESET_N (R16). -/
theorem HostOk.reset (k : HostOk h held granted) : HostOk h.hardReset none granted := by
  cases k with
  | free a b c d e f =>
    exact .free (by simp [HostPath.hardReset, c, a]) (by simp [HostPath.hardReset, c, b])
      (by simp [HostPath.hardReset, c]) rfl e (by simpa [HostPath.hardReset, c] using f)
  | reading x a b c d e f g i =>
    exact .requesting x (by simp [HostPath.hardReset, c]) (by simp [HostPath.hardReset, c, b])
      (by simp [HostPath.hardReset, c]) d rfl g
      ⟨by simp [HostPath.hardReset, c], by simp [HostPath.hardReset, c], by simp [HostPath.hardReset, c, i.hd]⟩
  | publishing x r a b c d e f g i j k =>
    refine .requesting { x with cls := .plain, window := none } (by simp [HostPath.hardReset, c])
      (by simp [HostPath.hardReset, c, b]) (by simp [HostPath.hardReset, c]) ?_ rfl j
      ⟨by simp [HostPath.hardReset, c], by simp [HostPath.hardReset, c], by simp [HostPath.hardReset, c, k.hd]⟩
    exact ⟨d.1, fun _ => rfl, by simp, by simp⟩
  | requesting x a b c d e f g =>
    exact .requesting x (by simp [HostPath.hardReset, c, a]) (by simp [HostPath.hardReset, c, b])
      (by simp [HostPath.hardReset, c]) d rfl f
      ⟨by simp [HostPath.hardReset, c], by simp [HostPath.hardReset, c], by simp [HostPath.hardReset, c, g.hd]⟩
  | memory x a b c d e f g =>
    exact .memory x (by simp [HostPath.hardReset, c, a]) (by simp [HostPath.hardReset, c, b])
      (by simp [HostPath.hardReset, c]) d rfl f
      ⟨by simp [HostPath.hardReset, c], by simp [HostPath.hardReset, c], by simp [HostPath.hardReset, c, g.hd]⟩

end HostShapes

end Sys2Proof.Machine
end

section
/-! SUPPORT. The laws as one invariant of the blocks, and that every operation of an event keeps it. -/

namespace Sys2Proof.Machine

/-! ## The invariant -/

/-- Every block keeps its own laws. -/
structure Blocks (s : State) : Prop where
  pq : PqOk s.pq
  aq : AqOk s.aq.entries
  fifo : s.out.fifo.length ≤ 4
  starvation : s.out.starvation ≤ 8
  flight : FlightOk s.orig s.node.params.retryLimit
  host : HostOk s.host s.pq.held s.granted
  link : LinkLaw s

/-- The blocks agree with the mode, and the level with the counters. -/
structure Sound (s : State) : Prop extends Blocks s where
  mode : ModeLaw s
  level : LevelLaw s

theorem queueLaw_iff (s : State) :
    s.pq.total ≤ 32 ∧ s.pq.low ≤ 28 ∧ s.aq.entries.length ≤ 24 ∧ QueueLaw s ↔ PqOk s.pq ∧ AqOk s.aq.entries := by
  constructor
  · rintro ⟨ht, hl, ha, h0, h1, h2, h3, hr, hn, hw⟩
    refine ⟨⟨ht, hl, fun c => ?_, hr⟩, ha, hn, hw⟩
    fin_cases c
    · exact h0
    · exact h1
    · exact h2
    · exact h3
  · rintro ⟨⟨ht, hl, hc, hr⟩, ha, hn, hw⟩
    exact ⟨ht, hl, ha, hc 0, hc 1, hc 2, hc 3, hr, hn, hw⟩

/-- The invariant is the laws of Safety.lean that concern the running blocks. -/
theorem sound_iff (s : State) :
    Sound s ∧ s.attn.queue.length ≤ 8 ↔
      CapacityLaw s ∧ ModeLaw s ∧ LevelLaw s ∧ HostLaw s ∧ FlightLaw s ∧ QueueLaw s ∧ LinkLaw s ∧ DriveLaw s := by
  constructor
  · rintro ⟨h, hi⟩
    obtain ⟨ht, hl, ha, hq⟩ := (queueLaw_iff s).2 ⟨h.pq, h.aq⟩
    obtain ⟨hh, hd⟩ := (hostOk_iff s).1 h.host
    have hf := (flightLaw_iff s).2 h.flight
    exact ⟨⟨ht, hl, hf.1, h.fifo, h.starvation, ha, hi⟩, h.mode, h.level, hh, hf, hq, h.link, hd⟩
  · rintro ⟨⟨ht, hl, -, hfifo, hst, ha, hi⟩, hm, hlev, hh, hf, hq, hlink, hd⟩
    obtain ⟨hpq, haq⟩ := (queueLaw_iff s).1 ⟨ht, hl, ha, hq⟩
    exact ⟨⟨⟨hpq, haq, hfifo, hst, (flightLaw_iff s).1 hf, (hostOk_iff s).2 ⟨hh, hd⟩, hlink⟩, hm, hlev⟩, hi⟩

section Kept
variable {s t : State} {e : Event}

/-- The invariant is about these blocks. -/
theorem Sound.congr (h : Sound s) (hr : t.resetN = s.resetN) (hh : t.host = s.host) (hp : t.pq = s.pq)
    (ho : t.orig = s.orig) (hl : t.link = s.link) (hout : t.out = s.out) (ha : t.aq = s.aq) (harb : t.arb = s.arb)
    (hn : t.node = s.node) : Sound t := by
  obtain ⟨⟨h1, h2, h3, h4, h5, h6, h7⟩, h8, h9⟩ := h
  refine ⟨⟨hp ▸ h1, ha ▸ h2, hout ▸ h3, hout ▸ h4, by rw [ho, hn]; exact h5, ?_, ?_⟩, ?_, ?_⟩
  · rw [hh, hp, State.granted, harb]; exact h6
  · rw [LinkLaw, hl, hr]; exact h7
  · rw [ModeLaw, hn, hp, ho, hh]; exact h8
  · rw [LevelLaw, hn]; exact h9

theorem Sound.withWindows (h : Sound s) (ws : Vector Window 16) : Sound (s.withWindows ws) :=
  h.congr rfl rfl rfl rfl rfl rfl rfl rfl rfl

theorem Blocks.withWindows (h : Blocks s) (ws : Vector Window 16) : Blocks (s.withWindows ws) :=
  ⟨h.pq, h.aq, h.fifo, h.starvation, h.flight, h.host, h.link⟩

theorem Blocks.withNode (h : Blocks s) {v : NodeControl} (hv : v.params = s.node.params) : Blocks (s.withNode v) :=
  ⟨h.pq, h.aq, h.fifo, h.starvation, by rw [State.withNode_orig, State.withNode_node, hv]; exact h.flight, h.host,
    h.link⟩

theorem Blocks.withOrig (h : Blocks s) {v : Origination} (hv : FlightOk v s.node.params.retryLimit) :
    Blocks (s.withOrig v) :=
  ⟨h.pq, h.aq, h.fifo, h.starvation, hv, h.host, h.link⟩

theorem Blocks.withOut (h : Blocks s) {v : OutputArbiter} (hf : v.fifo.length ≤ 4) (hs : v.starvation ≤ 8) :
    Blocks (s.withOut v) :=
  ⟨h.pq, h.aq, hf, hs, h.flight, h.host, h.link⟩

theorem Blocks.withAq (h : Blocks s) {v : ApplyQueue} (hv : AqOk v.entries) : Blocks (s.withAq v) :=
  ⟨h.pq, hv, h.fifo, h.starvation, h.flight, h.host, h.link⟩

theorem Blocks.withHost (h : Blocks s) {v : HostPath} (hv : HostOk v s.pq.held s.granted) : Blocks (s.withHost v) :=
  ⟨h.pq, h.aq, h.fifo, h.starvation, h.flight, hv, h.link⟩

theorem Blocks.withLink (h : Blocks s) {v : LinkInterface} (hv : LinkLaw (s.withLink v)) : Blocks (s.withLink v) :=
  ⟨h.pq, h.aq, h.fifo, h.starvation, h.flight, h.host, hv⟩

/-- A change of the Publish Queue that keeps the held request. -/
theorem Blocks.withPq (h : Blocks s) {v : PublishQueue} (hv : PqOk v) (hh : v.held = s.pq.held) :
    Blocks (s.withPq v) :=
  ⟨hv, h.aq, h.fifo, h.starvation, h.flight, by
    change HostOk s.host v.held s.granted
    rw [hh]
    exact h.host, h.link⟩

/-! ### The mode -/

/-- In OFFLINE nothing is queued, in flight or held, and no join goes on. -/
theorem modeLaw_of_offline (hm : t.node.mode = .offline) (hp : t.pq.total = 0) (hf : t.orig.flight = [])
    (ha : t.orig.announce = none) (hh : t.host.hold ≠ .publishHold) : ModeLaw t := by
  refine ⟨fun _ => ⟨hp, hf⟩, by simp [ha, hm], fun hj => by simp [hm] at hj, fun hb => absurd hb hh⟩

theorem modeLaw_of_joining (hm : t.node.mode = .joining) (hf : t.orig.flight = [])
    (ha : t.orig.announce.isSome = true) : ModeLaw t :=
  ⟨fun ho => by simp [hm] at ho, by simp [ha, hm], fun _ => hf, fun _ => .inl hm⟩

theorem modeLaw_of_active (hm : t.node.mode = .active) (ha : t.orig.announce = none) : ModeLaw t :=
  ⟨fun ho => by simp [hm] at ho, by simp [ha, hm], fun hj => by simp [hm] at hj, fun _ => .inr hm⟩

theorem modeLaw_of_draining (hm : t.node.mode = .draining) (ha : t.orig.announce = none)
    (hh : t.host.hold ≠ .publishHold) : ModeLaw t :=
  ⟨fun ho => by simp [hm] at ho, by simp [ha, hm], fun hj => by simp [hm] at hj, fun hb => absurd hb hh⟩

section Mode
variable (h : ModeLaw s)
include h

theorem ModeLaw.not_held_of_draining (hm : s.node.mode = .draining) : s.host.hold ≠ .publishHold := fun hh => by
  obtain ⟨-, -, -, hold⟩ := h
  rcases hold hh with hj | ha
  · cases hm.symm.trans hj
  · cases hm.symm.trans ha

theorem ModeLaw.announce_none (hm : s.node.mode ≠ .joining) : s.orig.announce = none := by
  obtain ⟨-, hann, -, -⟩ := h
  cases ha : s.orig.announce with
  | none => rfl
  | some r => exact absurd (hann.1 (by simp [ha])) hm

theorem ModeLaw.flight_nil (hm : s.node.mode.sends = false) : s.orig.flight = [] := by
  obtain ⟨hoff, -, hjoin, -⟩ := h
  cases hs : s.node.mode with
  | offline => exact (hoff hs).2
  | joining => exact hjoin hs
  | active => simp [hs, Mode.sends] at hm
  | draining => simp [hs, Mode.sends] at hm

theorem ModeLaw.captures_of_held (hh : s.host.hold = .publishHold) : s.node.mode.captures = true := by
  obtain ⟨-, -, -, hold⟩ := h
  rcases hold hh with hm | hm
  · simp [hm, Mode.captures]
  · simp [hm, Mode.captures]

theorem ModeLaw.mode_of_announce {r : AnnounceRecord} (hr : s.orig.announce = some r) : s.node.mode = .joining := by
  obtain ⟨-, hann, -, -⟩ := h
  exact hann.1 (by simp [hr])

/-- The mode stays and the blocks change within what it allows. -/
theorem ModeLaw.keep (hm : t.node.mode = s.node.mode) (ha : t.orig.announce.isSome = s.orig.announce.isSome)
    (hp : s.node.mode = .offline → s.pq.total = 0 → t.pq.total = 0)
    (hf : s.node.mode.sends = false → s.orig.flight = [] → t.orig.flight = [])
    (hh : t.host.hold = .publishHold → s.host.hold = .publishHold ∨ s.node.mode.captures = true) : ModeLaw t := by
  have hflight (hs : s.node.mode.sends = false) : t.orig.flight = [] := hf hs (h.flight_nil hs)
  obtain ⟨hoff, hann, -, hold⟩ := h
  refine ⟨fun ho => ?_, ?_, fun hj => ?_, fun hb => ?_⟩
  · rw [hm] at ho
    exact ⟨hp ho (hoff ho).1, hflight (by rw [ho]; rfl)⟩
  · rw [ha, hm]
    exact hann
  · rw [hm] at hj
    exact hflight (by rw [hj]; rfl)
  · rw [hm]
    rcases hh hb with hs | hc
    · exact hold hs
    · cases hs : s.node.mode with
      | offline => simp [hs, Mode.captures] at hc
      | joining => exact .inl rfl
      | active => exact .inr rfl
      | draining => simp [hs, Mode.captures] at hc

end Mode

/-- A change of blocks under one Node Control. -/
theorem Sound.keep (h : Sound s) (b : Blocks t) (hn : t.node = s.node)
    (ha : t.orig.announce.isSome = s.orig.announce.isSome)
    (hp : s.node.mode = .offline → s.pq.total = 0 → t.pq.total = 0)
    (hf : s.node.mode.sends = false → s.orig.flight = [] → t.orig.flight = [])
    (hh : t.host.hold = .publishHold → s.host.hold = .publishHold ∨ s.node.mode.captures = true) : Sound t :=
  ⟨b, h.mode.keep (by rw [hn]) ha hp hf hh, by rw [LevelLaw, hn]; exact h.level⟩

/-- A change that leaves queues, hold, announce record and Node Control. -/
theorem Sound.of_blocks (h : Sound s) (b : Blocks t) (hn : t.node = s.node) (ha : t.orig.announce = s.orig.announce)
    (hf : t.orig.flight = s.orig.flight) (hp : t.pq = s.pq) (hh : t.host.hold = s.host.hold) : Sound t :=
  h.keep b hn (by rw [ha]) (fun _ h0 => by rw [hp]; exact h0) (fun _ h0 => by rw [hf]; exact h0)
    fun hb => .inl (hh ▸ hb)

/-! ## Window flags and counts -/

theorem Event.requestDiverged_sound (h : Sound e.toState) (i : WinIdx) : Sound (e.requestDiverged i).toState := by
  obtain ⟨ws, hw⟩ := e.requestDiverged_toState i
  rw [hw]
  exact h.withWindows ws

theorem Event.requestStale_sound (h : Sound e.toState) (i : WinIdx) : Sound (e.requestStale i).toState := by
  obtain ⟨ws, hw⟩ := e.requestStale_toState i
  rw [hw]
  exact h.withWindows ws

theorem Event.requestDivergedAll_sound (h : Sound e.toState) (is : List WinIdx) :
    Sound (e.requestDivergedAll is).toState := by
  obtain ⟨ws, hw⟩ := e.requestDivergedAll_toState is
  rw [hw]
  exact h.withWindows ws

theorem Event.requestStaleAll_sound (h : Sound e.toState) (is : List WinIdx) :
    Sound (e.requestStaleAll is).toState := by
  obtain ⟨ws, hw⟩ := e.requestStaleAll_toState is
  rw [hw]
  exact h.withWindows ws

theorem Event.requestDivergedAll_blocks (h : Blocks e.toState) (is : List WinIdx) :
    Blocks (e.requestDivergedAll is).toState := by
  obtain ⟨ws, hw⟩ := e.requestDivergedAll_toState is
  rw [hw]
  exact h.withWindows ws

theorem Event.advanceUpdates_sound (h : Sound e.toState) (i : WinIdx) : Sound (e.advanceUpdates i).toState :=
  h.withWindows _

/-! ## Publish holds and captures -/

/-- In PUBLISH_HOLD the held request stands with the write's window. -/
theorem Blocks.held (h : Blocks s) (hh : s.host.hold = .publishHold) :
    ∃ c r, s.host.cycle = some c ∧ c.sound ∧ c.dir = .write ∧ c.cls = .publish ∧ s.pq.held = some r ∧
      heldWindow s = some r.window ∧ s.host.path = .holding := by
  cases h.host with
  | free _ _ hn => cases hh.symm.trans hn
  | reading _ _ _ hn => cases hh.symm.trans hn
  | requesting _ _ _ hn => cases hh.symm.trans hn
  | memory _ _ _ hn => cases hh.symm.trans hn
  | publishing c r hp hc _ hs hdir hcls hr hw =>
    exact ⟨c, r, hc, hs, hdir, hcls, hr, by simp [heldWindow, hc, hw], hp⟩

theorem Blocks.endPublishHold (h : Blocks s) (hh : s.host.hold = .publishHold) {cls : HostClass} {w : Option WinIdx}
    (hw : w = none ↔ cls = .plain) (hcls : cls ≠ .refused) : Blocks (endPublishHold cls w s) :=
  ⟨h.pq.withHeld (by simp), h.aq, h.fifo, h.starvation, h.flight, h.host.endHold hh hw hcls, h.link⟩

theorem Sound.endPublishHold (h : Sound s) (hh : s.host.hold = .publishHold) {cls : HostClass} {w : Option WinIdx}
    (hw : w = none ↔ cls = .plain) (hcls : cls ≠ .refused) : Sound (endPublishHold cls w s) :=
  h.keep (h.toBlocks.endPublishHold hh hw hcls) rfl rfl (fun _ => id) (fun _ => id) fun hb => by cases hb

theorem Event.demoteUnpublished_held_iff : (e.demoteUnpublished).host.hold ≠ .publishHold := by
  by_cases hh : e.host.hold = .publishHold
  · have hn : (HoldState.noHold : HoldState) ≠ .publishHold := by decide
    cases hw : heldWindow e.toState with
    | none => rw [e.demoteUnpublished_of_none hh hw]; exact hn
    | some i =>
      rw [e.demoteUnpublished_of_window hh hw, Event.requestDiverged_host]
      exact hn
  · rw [e.demoteUnpublished_of_ne hh]
    exact hh

theorem Event.demoteUnpublished_total : e.demoteUnpublished.pq.total = e.pq.total := by
  by_cases hh : e.host.hold = .publishHold
  · cases hw : heldWindow e.toState with
    | none => rw [e.demoteUnpublished_of_none hh hw]; rfl
    | some i => rw [e.demoteUnpublished_of_window hh hw, Event.requestDiverged_pq]; rfl
  · rw [e.demoteUnpublished_of_ne hh]

theorem Event.demoteUnpublished_blocks (h : Blocks e.toState) : Blocks e.demoteUnpublished.toState := by
  by_cases hh : e.host.hold = .publishHold
  · obtain ⟨c, r, -, -, -, -, -, hw, -⟩ := h.held hh
    rw [e.demoteUnpublished_of_window hh hw]
    obtain ⟨ws, hs⟩ := (e.on (Machine.endPublishHold .unpublished (some r.window))).requestDiverged_toState r.window
    rw [hs]
    exact Blocks.withWindows (h.endPublishHold hh (by simp) (by simp)) ws
  · rw [e.demoteUnpublished_of_ne hh]
    exact h

theorem Event.demoteUnpublished_sound (h : Sound e.toState) : Sound e.demoteUnpublished.toState := by
  refine h.keep (Event.demoteUnpublished_blocks h.toBlocks) ?_ ?_ (fun _ h0 => ?_) (fun _ h0 => ?_) fun hb => ?_
  · exact e.demoteUnpublished_node
  · rw [Event.demoteUnpublished_orig]
  · rw [Event.demoteUnpublished_total]; exact h0
  · rw [Event.demoteUnpublished_orig]; exact h0
  · exact absurd hb e.demoteUnpublished_held_iff

theorem demotePlain_sound (h : Sound s) : Sound (demotePlain s) := by
  unfold demotePlain
  split
  next hh => exact h.endPublishHold hh (by simp) (by simp)
  next => exact h

theorem Event.createEntry_sound (h : Sound e.toState) {r : CaptureRequest} (hr : r.lanes ≠ 0)
    (hroom : e.pq.hasRoom r.cls = true) (hm : e.node.mode ≠ .offline) : Sound (e.createEntry r).toState := by
  refine Event.advanceUpdates_sound (e := e.on _) ?_ _
  exact h.keep (h.toBlocks.withPq (h.pq.created hr hroom) (PublishQueue.setClassList_held ..)) rfl rfl
    (fun ho => absurd ho hm) (fun _ => id) .inl

theorem Event.combineTail_sound (h : Sound e.toState) {r : CaptureRequest} {t : PqEntry}
    (ht : (e.pq.classList r.cls).getLast? = some t) (hm : e.node.mode ≠ .offline) :
    Sound (e.combineTail r t).toState := by
  refine Event.advanceUpdates_sound (e := e.on _) ?_ _
  exact h.keep (h.toBlocks.withPq (h.pq.combined ht) (PublishQueue.setClassList_held ..)) rfl rfl
    (fun ho => absurd ho hm) (fun _ => id) .inl

theorem Mode.ne_offline_of_captures {m : Mode} (h : m.captures = true) : m ≠ .offline := fun hm => by
  rw [hm] at h
  cases h

theorem Event.roomCheck_sound (h : Sound e.toState) : Sound e.roomCheck.toState := by
  rcases e.roomCheck_cases with hc | ⟨r, hr, hh, hroom, hc⟩
  · rw [hc]; exact h
  · rw [hc]
    obtain ⟨c, r', -, -, -, -, hr', hw, -⟩ := h.toBlocks.held hh
    have hm := Mode.ne_offline_of_captures (h.mode.captures_of_held hh)
    refine Event.createEntry_sound (e := e.on _) ?_ (h.pq.held r hr) hroom hm
    exact h.endPublishHold hh (by simp [hw]) (by simp)

/-! ## The offer and its commitment -/

theorem Mode.ne_offline_of_sends {m : Mode} (h : m.sends = true) : m ≠ .offline := fun hm => by
  rw [hm] at h
  cases h

theorem Event.departEntry_sound (h : Sound e.toState) {p : PqEntry} (hp : e.pq.offer = some p)
    (hr : e.orig.resend = none) (hl : e.orig.flight.length < 16) (hm : e.node.mode.sends = true) :
    Sound (e.departEntry p).toState := by
  refine Event.roomCheck_sound (e := e.on _) ?_
  have hheld : e.pq.dropOffer.held = e.pq.held := by
    obtain ⟨c, rest, -, hd⟩ := PublishQueue.offer_cases hp
    rw [hd, PublishQueue.setClassList_held]
  have hb : Blocks (e.toState.withPq e.pq.dropOffer) := h.toBlocks.withPq (h.pq.dropOffer hp) hheld
  refine h.keep (hb.withOrig (FlightOk.depart h.flight hr hl p e.node.timebase)) rfl rfl
    (fun ho => absurd ho (Mode.ne_offline_of_sends hm)) (fun hs => ?_) .inl
  rw [hm] at hs
  cases hs

theorem startSending_sound (h : Sound s) (f : Frame) : Sound (startSending f 0 s) :=
  h.of_blocks (h.toBlocks.withOut h.fifo (Nat.zero_le _)) rfl rfl rfl rfl rfl

/-- An offer is one of three. -/
theorem originationOffer_cases {o : Offer} (h : originationOffer s = some o) :
    (∃ r, s.orig.announce = some r ∧ s.node.mode = .joining ∧ r.state = .awaitingSend ∧ o = .announce r) ∨
    (∃ f, s.orig.backoff = none ∧ s.orig.resend.isSome = true ∧ resendEntry s.orig = some f ∧ o = .resend f) ∨
    (∃ p, s.orig.resend = none ∧ s.node.mode.sends = true ∧ s.orig.flight.length < 16 ∧ s.pq.offer = some p ∧
      o = .fresh p) := by
  unfold originationOffer at h
  split at h
  next r hr =>
    cases h
    unfold announceOffer at hr
    split at hr
    next r' ha =>
      obtain ⟨hc, hr⟩ := Option.ite_none_right_eq_some.1 hr
      cases hr
      exact .inl ⟨r, ha, hc.1, hc.2, rfl⟩
    next => cases hr
  next =>
    split at h
    next hs =>
      obtain ⟨hb, h⟩ := Option.ite_none_right_eq_some.1 h
      obtain ⟨f, hf, rfl⟩ := Option.map_eq_some_iff.1 h
      exact .inr (.inl ⟨f, by simpa using hb, hs, hf, rfl⟩)
    next hs =>
      obtain ⟨⟨hm, hl⟩, h⟩ := Option.ite_none_right_eq_some.1 h
      obtain ⟨p, hp, rfl⟩ := Option.map_eq_some_iff.1 h
      exact .inr (.inr ⟨p, by simpa using hs, hm, hl, hp, rfl⟩)

/-- The resend pointer of a sound list names the first entry that awaits its resend. -/
theorem FlightOk.resend_cases {o : Origination} {limit : Byte} (h : FlightOk o limit) (hs : o.resend.isSome = true) :
    ∃ done f rest, FlightSplit o limit done (f :: rest) ∧ resendEntry o = some f ∧
      flightPosition o.flight f.seq = some done.length := by
  obtain ⟨done, todo, h⟩ := h
  obtain ⟨q, hq⟩ := Option.isSome_iff_exists.1 hs
  obtain ⟨f, rest, rfl, -⟩ := h.todo_of_resend hq
  exact ⟨done, f, rest, h, h.resendEntry_eq, h.position⟩

theorem Event.sendOffer_sound (h : Sound e.toState) {o : Offer} (ho : originationOffer e.toState = some o) :
    Sound (e.sendOffer o).toState := by
  rcases originationOffer_cases ho with ⟨r, ha, -, -, rfl⟩ | ⟨f, hb, hs, hf, rfl⟩ | ⟨p, hr, hm, hl, hp, rfl⟩
  · refine startSending_sound (s := e.toState.withOrig
      { e.orig with announce := some { r with state := .sent, departure := e.node.timebase } }) ?_ _
    refine h.keep (h.toBlocks.withOrig (h.flight.congr rfl rfl rfl rfl)) rfl ?_ (fun _ => id) (fun _ => id) .inl
    rw [State.withOrig_orig, ha]
    rfl
  · obtain ⟨done, f', rest, hsplit, hf', hpos⟩ := h.flight.resend_cases hs
    cases hf.symm.trans hf'
    have hsend : (e.sendOffer (.resend f)).toState =
        startSending (f.frame e.node.nodeId) 0 (resendAt done.length f e.toState) := by
      simp only [Event.sendOffer, Event.commitOffer, hpos]
      rfl
    rw [hsend]
    refine startSending_sound (s := resendAt done.length f e.toState) ?_ _
    refine h.keep (h.toBlocks.withOrig ?_) rfl rfl (fun _ => id) (fun hm h0 => ?_) .inl
    · exact ⟨_, _, hsplit.resend hb e.node.timebase⟩
    · have : (e.orig.flight.set done.length { f with state := .sent, departure := e.node.timebase }) = [] := by
        rw [h0]; rfl
      exact this
  · exact startSending_sound (Event.departEntry_sound h hp hr hl hm) _

theorem Event.chooseOutput_sound (h : Sound e.toState) : Sound e.chooseOutput.toState := by
  unfold Event.chooseOutput
  split
  · exact h
  · split
    next ho => exact Event.sendOffer_sound h ho
    · exact h
    next f rest o hf ho =>
      split
      · exact Event.sendOffer_sound h ho
      · have hfifo := h.fifo
        rw [hf] at hfifo
        exact h.of_blocks (h.toBlocks.withOut ((Nat.le_succ _).trans hfifo) (Nat.min_le_left _ _)) rfl rfl rfl rfl rfl
    next f rest hf _ =>
      have hfifo := h.fifo
      rw [hf] at hfifo
      exact h.of_blocks (h.toBlocks.withOut ((Nat.le_succ _).trans hfifo) (Nat.zero_le _)) rfl rfl rfl rfl rfl

/-! ## The Apply Queue and the memory port -/

theorem releaseReadHold_blocks (h : Blocks s) : Blocks (releaseReadHold s) := by
  rcases releaseReadHold_cases s with ⟨hh, -, hr⟩ | ⟨-, hr⟩
  · rw [hr]
    exact h.withHost (h.host.endReadHold hh)
  · rw [hr]; exact h

theorem releaseReadHold_held (hh : (releaseReadHold s).host.hold = .publishHold) : s.host.hold = .publishHold := by
  rcases releaseReadHold_cases s with ⟨-, -, hr⟩ | ⟨-, hr⟩
  · rw [hr] at hh
    cases hh
  · rwa [hr] at hh

theorem releaseReadHold_sound (h : Sound s) : Sound (releaseReadHold s) := by
  refine h.keep (releaseReadHold_blocks h.toBlocks) ?_ ?_ (fun _ h0 => ?_) (fun _ h0 => ?_) fun hb =>
    .inl (releaseReadHold_held hb)
  · exact releaseReadHold_node s
  · rw [releaseReadHold_orig]
  · rw [releaseReadHold_pq]; exact h0
  · rw [releaseReadHold_orig]; exact h0

theorem Sound.withAq (h : Sound s) {v : ApplyQueue} (hv : AqOk v.entries) : Sound (s.withAq v) :=
  h.of_blocks (h.toBlocks.withAq hv) rfl rfl rfl rfl rfl

theorem voidWaiting_blocks (h : Blocks s) (which : AqEntry → Bool) : Blocks (voidWaiting which s) :=
  releaseReadHold_blocks (h.withAq (h.aq.filter _))

theorem voidWaiting_held {which : AqEntry → Bool} (hh : (voidWaiting which s).host.hold = .publishHold) :
    s.host.hold = .publishHold := by
  unfold voidWaiting at hh
  have := releaseReadHold_held hh
  exact this

theorem voidWaiting_sound (h : Sound s) (which : AqEntry → Bool) : Sound (voidWaiting which s) :=
  releaseReadHold_sound (h.withAq (h.aq.filter _))

theorem Event.applyWordDone_sound (h : Sound e.toState) : Sound e.applyWordDone.toState := by
  have haq := h.aq
  unfold Event.applyWordDone
  split
  next a rest hq =>
    rw [hq] at haq
    split
    · split
      next k hk =>
        exact h.withAq (haq.setHead (haq.next a List.mem_cons_self).1 (present_nextPresent hk))
      next =>
        refine releaseReadHold_sound (Event.advanceUpdates_sound (e := e.on _) ?_ _)
        exact h.withAq haq.removeHead
    · exact h
  next => exact h

theorem createApplyEntry_sound (h : Sound s) (base : WordAddr) {mask : SpanMask} (hm : mask ≠ 0) (words : List Word)
    (i : WinIdx) (hr : s.aq.entries.length < 24) : Sound (createApplyEntry base mask words i s) :=
  h.withAq (h.aq.append hr hm (present_lowestPresent hm) rfl)

/-- A host request stands in REQUESTING alone. -/
theorem hostRequest_grant {c : MemCycle} (h : hostRequest s = some c) :
    s.host.path = .requesting ∧ c.grant = .host := by
  unfold hostRequest at h
  obtain ⟨hp, h⟩ := Option.ite_none_right_eq_some.1 h
  obtain ⟨r, -, rfl⟩ := Option.map_eq_some_iff.1 h
  exact ⟨hp, rfl⟩

theorem applyRequest_grant {c : MemCycle} (h : applyRequest s = some c) : c.grant = .apply := by
  obtain ⟨a, -, rfl⟩ := Option.map_eq_some_iff.1 h
  rfl

/-- A choice grants the host's request or the Apply Queue's. -/
theorem arbiterChoice_cases {c : MemCycle} (h : arbiterChoice s = some c) :
    hostRequest s = some c ∨ applyRequest s = some c := by
  unfold arbiterChoice at h
  split at h
  next ha =>
    split at h
    · cases h; exact .inr ha
    · split at h
      next hh =>
        split at h
        · cases h; exact .inl hh
        · cases h; exact .inr ha
      next => cases h; exact .inr ha
  next hh _ => cases h; exact .inl hh
  next => cases h

theorem arbitrate_sound (h : Sound s) : Sound (arbitrate s) := by
  unfold arbitrate
  split
  · exact h
  next hc =>
    have hg : s.granted ≠ some .host := by simp [State.granted, hc]
    split
    next c hch =>
      rcases arbiterChoice_cases hch with hr | hr
      · obtain ⟨hp, hgr⟩ := hostRequest_grant hr
        have hgc : grantCycle c s =
            (s.withArb { cycle := some c, lastGrant := .host }).withHost { s.host with path := .memory } := by
          simp [grantCycle, hgr]
        have hgt : (s.withArb { cycle := some c, lastGrant := .host }).granted = some .host := by
          simp [State.granted, hgr]
        rw [hgc]
        refine h.of_blocks ⟨h.pq, h.aq, h.fifo, h.starvation, h.flight, ?_, h.link⟩ rfl rfl rfl rfl rfl
        have hk := h.host.grant hp
        rwa [← hgt] at hk
      · have hgr := applyRequest_grant hr
        have hgc : grantCycle c s = (s.withArb { cycle := some c, lastGrant := .apply }).withAq
            { s.aq with entries := markHeadWriting s.aq.entries } := by
          simp [grantCycle, hgr]
        have hgt : (s.withArb { cycle := some c, lastGrant := .apply }).granted = some .apply := by
          simp [State.granted, hgr]
        rw [hgc]
        refine h.of_blocks ⟨h.pq, h.aq.markHeadWriting, h.fifo, h.starvation, h.flight, ?_, h.link⟩ rfl rfl rfl rfl rfl
        exact h.host.regrant hg fun hx => by cases hgt.symm.trans hx
    next => exact h

theorem choices_sound (h : Sound s) : Sound (choices s) := arbitrate_sound (Event.chooseOutput_sound h)

theorem Event.commit_sound (h : Sound e.toState) : Sound e.commit :=
  h.congr (by simp) (by simp) (by simp) (by simp) (by simp) (by simp) (by simp) (by simp) (by simp)

theorem Event.finish_sound (h : Sound e.toState) : Sound e.finish := by
  have hc := Event.commit_sound h
  rcases hm : e.moments with _ | ⟨_ | k, later⟩
  · rw [e.finish_of_alone hm]
    exact choices_sound hc
  · rw [e.finish_of_last hm]
    exact choices_sound (hc.congr rfl rfl rfl rfl rfl rfl rfl rfl rfl)
  · rw [e.finish_of_shared hm]
    exact hc.congr rfl rfl rfl rfl rfl rfl rfl rfl rfl

end Kept

end Sys2Proof.Machine
end

section
/-! SUPPORT. Reports, returns, arrivals and the inbound link keep the invariant. -/

namespace Sys2Proof.Machine

section Kept
variable {s t : State} {e : Event}

/-! ## Discards -/

theorem Event.discardPq_blocks (h : Blocks e.toState) : Blocks e.discardPq.toState := by
  refine Event.requestDivergedAll_blocks (e := e.on _) ?_ _
  exact h.withPq (pqOk_emptied h.pq) rfl

@[simp] theorem Event.discardPq_total : e.discardPq.pq.total = 0 := by
  rw [Event.discardPq, Event.requestDivergedAll_pq]
  rfl

theorem Event.discardPq_held : e.discardPq.pq.held = e.pq.held := by
  rw [Event.discardPq, Event.requestDivergedAll_pq]
  rfl

@[simp] theorem Event.discardFlight_orig :
    e.discardFlight.orig = { e.orig with flight := [], resend := none, backoff := none } := by
  rw [Event.discardFlight, Event.requestDivergedAll_orig]
  rfl

theorem Event.discardFlight_blocks (h : Blocks e.toState) : Blocks e.discardFlight.toState := by
  refine Event.requestDivergedAll_blocks (e := e.on _) ?_ _
  exact h.withOrig (flightOk_nil _ rfl rfl rfl)

theorem abandonAnnounce_blocks (h : Blocks s) : Blocks (abandonAnnounce s) :=
  h.withOrig (h.flight.congr rfl rfl rfl rfl)

/-! ## Levels and reports (R149 to R154) -/

/-- An isolated node is OFFLINE with both queues empty, whatever its mode was. -/
theorem Event.isolate_sound (h : Blocks e.toState) : Sound e.isolate.toState := by
  have hnode : e.isolate.node = { e.node with level := .isolated, mode := .offline } := by
    simp [Event.isolate, abandonAnnounce, setMode, setLevel]
  refine ⟨?_, modeLaw_of_offline (by rw [hnode]) ?_ ?_ ?_ ?_, fun _ => by rw [hnode], ?_, ?_⟩
  · refine abandonAnnounce_blocks (Event.discardFlight_blocks (Event.demoteUnpublished_blocks
      (Event.discardPq_blocks (e := ((e.on _).raise _).on _) ?_)))
    exact Blocks.withNode (s := setLevel .isolated e.toState) (h.withNode rfl) rfl
  · simp [Event.isolate, abandonAnnounce, Event.demoteUnpublished_total]
  · simp [Event.isolate, abandonAnnounce]
  · simp [Event.isolate, abandonAnnounce]
  · simpa [Event.isolate, abandonAnnounce] using Event.demoteUnpublished_held_iff
  · rw [hnode]
    simp
  · rw [hnode]
    simp

/-- Level evaluation settles the level, whatever the counters have become (R152). -/
theorem Event.evaluateLevel_sound (h : Blocks e.toState) (hm : ModeLaw e.toState)
    (hi : e.node.level = .isolated → e.node.mode = .offline) : Sound e.evaluateLevel.toState := by
  have level (l : Level) (hl : LevelLaw (setLevel l e.toState)) : Sound (setLevel l e.toState) :=
    ⟨h.withNode rfl, hm, hl⟩
  unfold Event.evaluateLevel
  dsimp only [Config.isolateAt, Config.degradeAt, Config.restoreAt]
  split
  · exact Event.isolate_sound h
  next h1 =>
    split
    next h2 =>
      refine level .degraded ⟨fun hl => by simp [setLevel] at hl, fun hl => by simp [setLevel] at hl, fun _ => ?_⟩
      have hlow : ¬(240 ≤ e.node.lif.toNat ∨ 240 ≤ e.node.rtf.toNat) := fun hc => h1 ⟨by simp [h2.1], hc⟩
      simp only [setLevel, State.withNode_node]
      omega
    next h2 =>
      split
      next h3 =>
        refine level .normal ⟨fun hl => by simp [setLevel] at hl, fun _ => ?_, fun hl => by simp [setLevel] at hl⟩
        simp only [setLevel, State.withNode_node]
        omega
      next h3 =>
        refine ⟨h, hm, hi, fun hl => ?_, fun hl => ?_⟩
        · simp only [hl, true_and] at h2
          omega
        · have hlow : ¬(240 ≤ e.node.lif.toNat ∨ 240 ≤ e.node.rtf.toNat) := fun hc => h1 ⟨by simp [hl], hc⟩
          omega

theorem Report.apply_params (r : Report) (n : NodeControl) : (r.apply n).params = n.params := by cases r <;> rfl
theorem Report.apply_mode (r : Report) (n : NodeControl) : (r.apply n).mode = n.mode := by cases r <;> rfl

theorem Event.reportUnder_sound (h : Sound e.toState) (m : Mode) (r : Report) : Sound (e.reportUnder m r).toState := by
  unfold Event.reportUnder
  split
  · exact h
  · refine Event.evaluateLevel_sound (e := e.on _) ?_ ?_ ?_
    · exact h.toBlocks.withNode (r.apply_params _)
    · have hm := h.mode
      simpa [ModeLaw, r.apply_mode] using hm
    · have hl := h.level.1
      simpa [r.apply_mode, r.apply_level] using hl

theorem Event.report_sound (h : Sound e.toState) (r : Report) : Sound (e.report r).toState :=
  Event.reportUnder_sound h _ r

theorem levelLaw_of_unisolated (hl : s.node.level ≠ .isolated) (h : LevelLaw s) {m : Mode} :
    LevelLaw (setMode m s) :=
  ⟨fun hi => absurd hi hl, h.2.1, h.2.2⟩

/-- A node in another mode than OFFLINE is not ISOLATED. -/
theorem LevelLaw.unisolated (h : LevelLaw s) (hm : s.node.mode ≠ .offline) : s.node.level ≠ .isolated :=
  fun hi => hm (h.1 hi)

theorem Event.drainCheck_sound (h : Sound e.toState) : Sound e.drainCheck.toState := by
  rcases e.drainCheck_cases with ⟨hm, hp, hf, hd⟩ | ⟨-, hd⟩
  · rw [hd]
    refine ⟨h.toBlocks.withNode rfl, ?_, fun _ => rfl, h.level.2.1, h.level.2.2⟩
    exact modeLaw_of_offline rfl hp hf (h.mode.announce_none (by simp [hm])) (h.mode.not_held_of_draining hm)
  · rw [hd]
    exact h

/-! ## Go-back, give-up and returns (R85 to R97) -/

/-- The list discarded at a give-up, before the mode changes. -/
theorem Event.discardFlight_sound (h : Sound e.toState) : Sound e.discardFlight.toState := by
  refine h.keep (Event.discardFlight_blocks h.toBlocks) e.discardFlight_node (by rw [Event.discardFlight_orig])
    (fun _ h0 => ?_) (fun _ _ => by rw [Event.discardFlight_orig]) fun hh => ?_
  · rw [Event.discardFlight_pq]
    exact h0
  · rw [Event.discardFlight_host] at hh
    exact .inl hh

/-- ACTIVE goes to JOINING with a new announce record (R94). -/
theorem rejoin_sound (h : Sound s) (hm : s.node.mode = .active) (hf : s.orig.flight = []) :
    Sound (createAnnounce (setMode .joining s)) := by
  refine ⟨?_, modeLaw_of_joining rfl hf rfl, ?_⟩
  · exact (Blocks.withNode h.toBlocks (v := { s.node with mode := .joining }) rfl).withOrig
      (h.flight.congr rfl rfl rfl rfl)
  · exact levelLaw_of_unisolated (h.level.unisolated (by simp [hm])) h.level

/-- A drain that ends with its queues discarded (R94). -/
theorem Event.drained_sound (h : Sound e.toState) (hm : e.node.mode = .draining) (hf : e.orig.flight = []) :
    Sound (setMode .offline e.discardPq.toState) := by
  refine ⟨Blocks.withNode (Event.discardPq_blocks h.toBlocks) rfl,
    modeLaw_of_offline rfl Event.discardPq_total ?_ ?_ ?_, fun _ => rfl, ?_, ?_⟩
  · simpa [setMode] using hf
  · simpa [setMode] using h.mode.announce_none (by simp [hm])
  · simpa [setMode] using h.mode.not_held_of_draining hm
  · simpa [setMode] using h.level.2.1
  · simpa [setMode] using h.level.2.2

theorem Event.giveUp_sound (h : Sound e.toState) (q : Byte) : Sound (e.giveUp q).toState := by
  have hs : Sound (e.raise (.deliveryFailed q)).discardFlight.toState := Event.discardFlight_sound h
  have hf : (e.raise (.deliveryFailed q)).discardFlight.orig.flight = [] := by rw [Event.discardFlight_orig]
  unfold Event.giveUp
  dsimp only
  split
  next hm => exact rejoin_sound hs hm hf
  next hm => exact Event.drained_sound hs hm hf
  · exact hs
  · exact hs

theorem Event.goBack_sound (h : Sound e.toState) (b : Bool) : Sound (e.goBack b).toState := by
  rcases e.goBack_cases b with ⟨-, hg⟩ | ⟨x, rest, -, -, hg⟩ | ⟨x, rest, hf, hx, hg⟩
  · rw [hg]; exact h
  · rw [hg]; exact Event.giveUp_sound h _
  · rw [hg]
    refine h.keep (h.toBlocks.withOrig (FlightOk.goBack h.flight hf hx)) rfl rfl (fun _ => id) (fun _ h0 => ?_) .inl
    exact absurd h0 (by simp [hf])

theorem Event.goBackReported_sound (h : Sound e.toState) (b : Bool) (r : Report) :
    Sound (e.goBackReported b r).toState :=
  Event.reportUnder_sound (Event.goBack_sound h b) _ r

theorem Event.retire_sound (h : Sound e.toState) {x : IflEntry} {rest : List IflEntry} (hf : e.orig.flight = x :: rest)
    (hx : x.state = .sent) : Sound e.retire.toState := by
  refine Event.drainCheck_sound (Event.report_sound (e := e.on _) ?_ _)
  refine h.keep (h.toBlocks.withOrig ?_) rfl rfl (fun _ => id) (fun _ h0 => absurd h0 (by simp [hf])) .inl
  rw [hf]
  exact h.flight.retire hf hx

theorem countStale_sound (h : Sound s) : Sound (countStale s) :=
  h.of_blocks (h.toBlocks.withOrig (h.flight.congr rfl rfl rfl rfl)) rfl rfl rfl rfl rfl

/-- The entry a return is matched with stands at its position. -/
theorem Event.updateReturned_sound (h : Sound e.toState) (f : Frame) : Sound (e.updateReturned f).toState := by
  unfold Event.updateReturned
  split
  · exact h
  next i x hx =>
    obtain ⟨j, -, hj⟩ := Option.bind_eq_some_iff.1 hx
    obtain ⟨y, hy, hxy⟩ := Option.map_eq_some_iff.1 hj
    cases hxy
    split
    · exact countStale_sound h
    next hn =>
      split
      · exact Event.goBackReported_sound h _ _
      · split
        next hi =>
          cases hf : e.orig.flight with
          | nil => simp [hf] at hy
          | cons z rest =>
            have hz : z = x := by simpa [hf, hi] using hy
            refine Event.retire_sound h hf ?_
            rw [hz]
            cases hs : x.state with
            | sent => rfl
            | awaitingResend => exact absurd (.inr hs) hn
        · exact Event.goBackReported_sound h _ _

theorem Event.announceReturned_sound (h : Sound e.toState) (f : Frame) : Sound (e.announceReturned f).toState := by
  unfold Event.announceReturned
  split
  next r hr =>
    split
    · have hm := h.mode.mode_of_announce hr
      refine ⟨Blocks.withNode (abandonAnnounce_blocks h.toBlocks) rfl, modeLaw_of_active ?_ rfl, ?_⟩
      · simp [setMode, hm, joinMode]
      · exact levelLaw_of_unisolated (h.level.unisolated (by simp [hm])) h.level
    · exact countStale_sound h
  · exact countStale_sound h

theorem Event.returned_sound (h : Sound e.toState) (f : Frame) : Sound (e.returned f).toState := by
  unfold Event.returned
  split
  · exact Event.updateReturned_sound h f
  · exact Event.announceReturned_sound h f

/-! ## Arrivals (R69 to R72, R102 to R120) -/

theorem Sound.withSources (h : Sound s) (v : Vector SeqEntry 16) : Sound (s.withSources v) :=
  h.congr rfl rfl rfl rfl rfl rfl rfl rfl rfl

theorem Event.forward_sound (h : Sound e.toState) (f : Frame) (nak : Bool) : Sound (e.forward f nak).toState := by
  rcases e.forward_cases f nak with ⟨-, hf⟩ | ⟨hl, hf⟩
  · rw [hf]
    exact Event.report_sound (e := e.raise _) h _
  · rw [hf]
    exact h.of_blocks (h.toBlocks.withOut (by simpa using hl) h.starvation) rfl rfl rfl rfl rfl

theorem Event.inOrder_sound (h : Sound e.toState) (f : Frame) (ch : Byte) (span : SpanOffset) {mask : SpanMask}
    (hm : mask ≠ 0) (words : List Word) : Sound (e.inOrder f ch span mask words).1.toState := by
  rcases e.inOrder_cases f ch span mask words with ⟨-, hc⟩ | ⟨i, -, ⟨-, hc⟩ | ⟨-, -, hc⟩ | ⟨-, -, ⟨hr, hc⟩ |
    ⟨-, -, hc⟩ | ⟨-, -, hc⟩⟩⟩
  all_goals rw [hc]
  · exact h.withSources _
  · exact h.withSources _
  · exact h.withSources _
  · exact (createApplyEntry_sound h _ hm words i hr).withSources _
  · exact h
  · exact (Event.requestStale_sound h i).withSources _

theorem Event.updateArrived_sound (h : Sound e.toState) (f : Frame) (ch : Byte) (span : SpanOffset) {mask : SpanMask}
    (hm : mask ≠ 0) (words : List Word) : Sound (e.updateArrived f ch span mask words).1.toState := by
  unfold Event.updateArrived
  dsimp only
  split
  · refine Event.inOrder_sound (e := (e.on _).raise _) ?_ _ _ _ hm _
    exact h.withSources _
  · split
    · exact Event.inOrder_sound h _ _ _ hm _
    · split
      · split
        · exact h.withSources _
        · refine Event.inOrder_sound (e := (Event.requestStaleAll _ _).on _) ?_ _ _ _ hm _
          refine Sound.withSources (Event.requestStaleAll_sound (e := e.on _) ?_ _) _
          exact h.withSources _
      · exact h.withSources _

/-- The frame's mask has a bit (R69). -/
def Frame.carries (f : Frame) : Prop := ∀ ch span mask words, f.body = .update ch span mask words → mask ≠ 0

theorem parseFrame_carries {bytes : List Byte} {f : Frame} (h : parseFrame bytes = some f) : f.carries := by
  intro ch span mask words hb
  unfold parseFrame at h
  obtain ⟨-, h⟩ := Option.ite_none_left_eq_some.1 h
  obtain ⟨-, h⟩ := Option.ite_none_right_eq_some.1 h
  unfold frameOfChecked at h
  split at h
  next =>
    dsimp only at h
    split at h
    · obtain ⟨-, ⟨⟩⟩ := Option.ite_none_right_eq_some.1 h
      cases hb
    · obtain ⟨-, h⟩ := Option.ite_none_right_eq_some.1 h
      split at h
      · obtain ⟨hm, ⟨⟩⟩ := Option.ite_none_right_eq_some.1 h
        cases hb
        exact hm.1
      · cases h
  next => cases h

theorem Sound.withLink (h : Sound s) {v : LinkInterface} (hv : LinkLaw (s.withLink v)) : Sound (s.withLink v) :=
  h.of_blocks (h.toBlocks.withLink hv) rfl rfl rfl rfl rfl

theorem Event.goodArrival_sound (h : Sound e.toState) {f : Frame} (hf : f.carries) :
    Sound (e.goodArrival f).toState := by
  unfold Event.goodArrival
  split
  · exact Event.returned_sound h f
  · split
    · exact h.withLink h.link
    · split
      · exact Event.forward_sound h f _
      · split
        · refine Event.forward_sound (e := e.on _) ?_ f _
          exact h.withSources _
        next ch span mask words hb =>
          exact Event.forward_sound (Event.updateArrived_sound h f ch span (hf _ _ _ _ hb) words) f _

theorem Event.receive_sound (h : Sound e.toState) (bytes : List Byte) : Sound (e.receive bytes).toState := by
  unfold Event.receive
  split
  · exact Event.report_sound h _
  next f hf => exact Event.goodArrival_sound (Event.report_sound h _) (parseFrame_carries hf)

/-! ## The inbound link (R58 to R64) -/

theorem stampTransition_sound (h : Sound s) : Sound (stampTransition s) := h.withLink h.link

/-- A frame that ends or is cut off leaves no partial frame. -/
theorem closeFrame_sound (h : Sound s) : Sound (s.withLink { s.link with assembly := none, skip := true }) := by
  obtain ⟨-, -, -, h4, h5, h6, h7, h8, h9⟩ := h.link
  exact h.withLink ⟨by simp, by simp, by simp, h4, h5, h6, h7, h8, h9⟩

theorem Event.cutOff_sound (h : Sound e.toState) : Sound e.cutOff.toState := by
  unfold Event.cutOff
  split
  · refine Event.report_sound (e := e.on _) ?_ _
    exact closeFrame_sound h
  · exact h

/-- A cut-off leaves the rest of the Link Interface. -/
theorem Event.cutOff_link : e.cutOff.link =
    { e.link with assembly := none, skip := if e.link.assembly.isSome then true else e.link.skip } := by
  unfold Event.cutOff
  split
  next => simp
  next h =>
    have hn : e.link.assembly = none := by simpa using h
    rw [← hn]

@[simp] theorem Event.cutOff_resetN : e.cutOff.resetN = e.resetN := by
  unfold Event.cutOff
  split
  · simp
  · rfl

theorem openFrame_sound (h : Sound s) (hu : s.link.inbound = .up) : Sound (openFrame s) := by
  obtain ⟨-, -, -, h4, h5, h6, h7, h8, h9⟩ := h.link
  refine h.withLink ⟨fun _ => hu, ?_, ?_, h4, h5, h6, h7, h8, h9⟩
  · change false = true ↔ some [] = none
    simp
  · rintro bs ⟨⟩
    exact Nat.zero_le _

theorem Event.enterUp_sound (h : Sound e.toState) (hr : e.resetN = true) :
    Sound e.enterUp.toState := by
  obtain ⟨h1, h2, h3, -, -, -, -, h8, -⟩ := h.link
  refine h.withLink ⟨fun _ => rfl, h2, h3, Nat.le_refl _, Nat.zero_le _, fun h => (by cases h),
    fun _ => ⟨rfl, Nat.zero_lt_succ _⟩, h8, fun hn => by cases hr.symm.trans hn⟩

theorem Event.loseAlignment_sound (h : Sound e.toState) (hr : e.resetN = true) : Sound e.loseAlignment.toState := by
  obtain ⟨-, -, -, -, -, -, -, h8, -⟩ := h.link
  exact h.withLink ⟨by simp, by simp, by simp, Nat.zero_le _, Nat.le_refl _, fun _ => Nat.zero_lt_succ _,
    fun h => (by cases h), h8, fun hn => by cases hr.symm.trans hn⟩

theorem Event.frameEnd_sound (h : Sound e.toState) (bytes : List Byte) : Sound (e.frameEnd bytes).toState := by
  refine Event.receive_sound (e := e.on _) ?_ bytes
  exact closeFrame_sound h

/-- A valid symbol ends a run of invalid ones (R63). -/
theorem clearInvalid_sound (h : Sound s) : Sound (s.withLink { s.link with invalidRun := 0 }) := by
  obtain ⟨h1, h2, h3, h4, -, h6, h7, h8, h9⟩ := h.link
  exact h.withLink ⟨h1, h2, h3, h4, Nat.zero_le _, h6, fun hu => ⟨(h7 hu).1, Nat.zero_lt_succ _⟩, h8, h9⟩

theorem Event.validInUp_sound (h : Sound e.toState) (hu : e.link.inbound = .up) (sym : Symbol) :
    Sound (e.validInUp sym).toState := by
  have hc : Sound (e.on fun s => s.withLink { s.link with invalidRun := 0 }).toState := clearInvalid_sound h
  unfold Event.validInUp
  dsimp only
  split
  · refine openFrame_sound (Event.cutOff_sound hc) ?_
    rw [Event.cutOff_link]
    exact hu
  · exact openFrame_sound hc hu
  next bs v ha =>
    split
    · exact Event.cutOff_sound hc
    next hl =>
      obtain ⟨h1, h2, h3, h4, h5, h6, h7, h8, h9⟩ := hc.link
      refine hc.withLink ⟨fun _ => hu, ?_, ?_, h4, h5, h6, h7, h8, h9⟩
      · have hs : e.link.skip ≠ true := fun hs => by cases (h2.1 hs).symm.trans ha
        change e.link.skip = true ↔ some _ = none
        simp [hs]
      · rintro bs ⟨⟩
        simpa using hl
  · exact Event.frameEnd_sound hc _
  · exact Event.cutOff_sound hc
  · exact hc

theorem Event.invalidInUp_sound (h : Sound e.toState) (hr : e.resetN = true) : Sound e.invalidInUp.toState := by
  have hc := Event.cutOff_sound h
  unfold Event.invalidInUp
  dsimp only
  split
  · exact Event.loseAlignment_sound hc (by rw [Event.cutOff_resetN]; exact hr)
  next hn =>
    obtain ⟨h1, h2, h3, h4, -, h6, h7, h8, h9⟩ := hc.link
    have hlt : e.cutOff.link.invalidRun + 1 < 4 := Nat.not_le.1 hn
    exact hc.withLink ⟨h1, h2, h3, h4, Nat.le_of_lt hlt, h6, fun hu => ⟨(h7 hu).1, hlt⟩, h8, h9⟩

theorem Event.symbol_sound (h : Sound e.toState) (hr : e.resetN = true) (sym : Symbol) :
    Sound (e.symbol sym).toState := by
  obtain ⟨h1, h2, h3, h4, h5, h6, h7, h8, h9⟩ := h.link
  unfold Event.symbol
  split
  · exact h
  next ha =>
    split
    · exact h.withLink ⟨h1, h2, h3, Nat.zero_le _, h5, fun _ => Nat.zero_lt_succ _, fun hu => (by cases ha.symm.trans hu), h8,
        h9⟩
    · split
      · exact Event.enterUp_sound h hr
      next hn =>
        have hlt : e.link.validRun + 1 < 32 := Nat.not_le.1 hn
        exact h.withLink ⟨h1, h2, h3, Nat.le_of_lt hlt, h5, fun _ => hlt, fun hu => (by cases ha.symm.trans hu), h8, h9⟩
  next hu =>
    split
    · exact Event.invalidInUp_sound h hr
    · exact Event.validInUp_sound h hu sym

theorem Event.loseSignal_sound (h : Sound e.toState) : Sound e.loseSignal.toState := by
  have hc := Event.cutOff_sound h
  obtain ⟨-, -, -, h4, h5, -, -, h8, -⟩ := hc.link
  have hn : e.cutOff.link.assembly = none := by rw [Event.cutOff_link]
  have hl : Sound (e.cutOff.toState.withLink { e.cutOff.link with inbound := .noSignal, skip := true }) := by
    refine hc.withLink ⟨?_, ?_, ?_, h4, h5, fun h => (by cases h), fun h => (by cases h), h8, fun _ => rfl⟩
    · simp [hn]
    · simp [hn]
    · simp [hn]
  unfold Event.loseSignal
  dsimp only
  split
  · exact hl
  · exact hl

theorem runBegins_sound (h : Sound s) : Sound (runBegins s) := by
  unfold runBegins
  split
  · exact Event.commit_sound (Event.cutOff_sound (e := Event.begin s) h)
  · exact h

end Kept

end Sys2Proof.Machine
end

section
/-! SUPPORT. The Host Path, completions, resets and management commands keep the invariant; every command does. -/

namespace Sys2Proof.Machine

section Kept
variable {s t : State} {e : Event}

/-! ## Acceptance (R2 to R12) -/

theorem Sound.withHost (h : Sound s) {v : HostPath} (hv : HostOk v s.pq.held s.granted)
    (hh : v.hold = .publishHold → s.host.hold = .publishHold ∨ s.node.mode.captures = true) : Sound (s.withHost v) :=
  h.keep (h.toBlocks.withHost hv) rfl rfl (fun _ => id) (fun _ => id) hh

/-- The path is FREE and nothing is signalled or driven, so a cycle may enter it. -/
structure Ready (s : State) : Prop where
  path : s.host.path = .free
  delay : s.host.refusedDelay = false
  hd : s.host.hd = none

theorem Ready.granted (hr : Ready s) (h : Blocks s) : s.pq.held = none ∧ s.granted ≠ some .host := by
  cases h.host with
  | free _ _ _ d e => exact ⟨d, e⟩
  | reading _ a => cases hr.path.symm.trans a
  | publishing _ _ a => cases hr.path.symm.trans a
  | requesting _ a => cases hr.path.symm.trans a
  | memory _ a => cases hr.path.symm.trans a

theorem ready_of_canAccept (h : Sound s) (hc : canAccept s = true) : Ready s := by
  simp only [canAccept, Bool.and_eq_true, decide_eq_true_eq, Bool.not_eq_true'] at hc
  obtain ⟨⟨⟨-, hp⟩, hd⟩, hst⟩ := hc
  refine ⟨hp, hd, ?_⟩
  cases h.host with
  | free _ _ _ _ _ f =>
    cases hh : s.host.hd with
    | none => rfl
    | some d => exact absurd (f (by simp [hh])).2 (by simp [hst])
  | reading _ a => cases hp.symm.trans a
  | publishing _ _ a => cases hp.symm.trans a
  | requesting _ a => cases hp.symm.trans a
  | memory _ a => cases hp.symm.trans a

theorem markAccepted_sound (h : Sound s) : Sound (markAccepted s) :=
  h.withHost (h.host.congr rfl rfl rfl (fun q => ⟨q.delay, q.herr, q.hd⟩) fun f hd => ⟨(f hd).1, rfl⟩) .inl

theorem Ready.markAccepted (h : Ready s) : Ready (markAccepted s) := ⟨h.path, h.delay, h.hd⟩

theorem enterRequesting_sound (h : Sound s) (hr : Ready s) {c : CycleRecord} (hc : c.sound) :
    Sound (enterRequesting c s) := by
  obtain ⟨hheld, hg⟩ := hr.granted h.toBlocks
  exact h.withHost (hostOk_request hc hheld hg ⟨hr.delay, hr.hd⟩) fun hb => by cases hb

/-- A record made of the presented cycle agrees with its class. -/
theorem record_sound {c : HostCycle} {cls : HostClass} {w : Option WinIdx} (hr : c.dir = .read → cls = .plain)
    (hw : w = none ↔ cls = .plain) (hcls : cls ≠ .refused) : (c.record cls w).sound := by
  refine ⟨?_, hr, hw, hcls⟩
  change (if c.dir = .write then some c.data else none).isSome = true ↔ c.dir = .write
  split
  next h => simp [h]
  next h => simp [h]

theorem acceptPlain_sound (h : Sound s) (hr : Ready s) (c : HostCycle) : Sound (acceptPlain c s) := by
  have hs : (c.record .plain none).sound := record_sound (fun _ => rfl) (by simp) (by simp)
  unfold acceptPlain
  dsimp only
  split
  next hd =>
    split
    next a ha =>
      obtain ⟨hheld, hg⟩ := hr.granted h.toBlocks
      exact h.withHost (.reading (c.record .plain none) rfl rfl rfl hs hd hheld hg ⟨hr.delay, rfl, hr.hd⟩)
        fun hb => by cases hb
    · exact enterRequesting_sound h hr hs
  next => exact enterRequesting_sound h hr hs

/-- What a classification says of the cycle (R5). -/
theorem classify_window {c : HostCycle} {cls : HostClass} {i : WinIdx} (h : classify s c = (cls, some i)) :
    c.dir = .write ∧ c.lanes ≠ 0 ∧ (cls = .publish → s.node.mode.captures = true) ∧ cls ≠ .plain := by
  unfold classify at h
  split at h
  · cases h
  next hd =>
    split at h
    · cases h
    next hl =>
      have hw : c.dir = .write := by
        cases hc : c.dir with
        | read => exact absurd hc hd
        | write => rfl
      refine ⟨hw, hl, ?_⟩
      split at h
      · cases h
      · split at h
        · split at h
          next hm => cases h; exact ⟨fun _ => hm, by simp⟩
          next => cases h; exact ⟨by simp, by simp⟩
        · cases h; exact ⟨by simp, by simp⟩
        · cases h; exact ⟨by simp, by simp⟩

theorem Event.expirePublishHold_sound (h : Sound e.toState) : Sound e.expirePublishHold.toState := by
  unfold Event.expirePublishHold
  split
  · exact Event.demoteUnpublished_sound (e := e.raise _) h
  · exact h

/-- A capture that is decided keeps the invariant and leaves the path ready. -/
theorem Event.capture_sound (h : Sound e.toState) {r : CaptureRequest} (hr : r.lanes ≠ 0)
    (hm : e.node.mode ≠ .offline) {e' : Event} (hc : e.capture r = some e') : Sound e'.toState ∧ e'.host = e.host := by
  rcases e.capture_cases r with ⟨t, ht, -, hk⟩ | ⟨-, hroom, hk⟩ | ⟨-, -, hk⟩
  · cases hk.symm.trans hc
    exact ⟨Event.combineTail_sound h ht hm, e.combineTail_host r t⟩
  · cases hk.symm.trans hc
    exact ⟨Event.createEntry_sound h hr hroom hm, e.createEntry_host r⟩
  · cases hk.symm.trans hc

theorem Event.acceptPublish_sound (h : Sound e.toState) (hr : Ready e.toState) {c : HostCycle} (i : WinIdx)
    (hd : c.dir = .write) (hl : c.lanes ≠ 0) (hm : e.node.mode.captures = true) :
    Sound (e.acceptPublish c i).toState := by
  have hs : (c.record .publish (some i)).sound := record_sound (by simp [hd]) (by simp) (by simp)
  unfold Event.acceptPublish
  dsimp only
  split
  next e' he' =>
    obtain ⟨h', hh⟩ := Event.capture_sound h hl (Mode.ne_offline_of_captures hm) he'
    exact enterRequesting_sound h' ⟨by rw [hh]; exact hr.path, by rw [hh]; exact hr.delay, by rw [hh]; exact hr.hd⟩ hs
  next =>
    obtain ⟨hheld, hg⟩ := hr.granted h.toBlocks
    have held : Sound ((e.toState.withHost
        { e.host with path := .holding, cycle := some (c.record .publish (some i)), hold := .publishHold
                      holdStart := e.node.timebase, herr := false }).withPq
        { e.pq with held := some (captureRequest e.toState c i) }) := by
      refine h.keep ⟨h.pq.withHeld ?_, h.aq, h.fifo, h.starvation, h.flight, ?_, h.link⟩ rfl rfl (fun _ => id)
        (fun _ => id) fun _ => .inr hm
      · rintro r ⟨⟩
        exact hl
      · exact .publishing (c.record .publish (some i)) (captureRequest e.toState c i) rfl rfl rfl hs hd rfl rfl rfl hg
          ⟨hr.delay, rfl, hr.hd⟩
    split
    · exact Event.expirePublishHold_sound held
    · exact held

theorem Event.acceptRefused_sound (h : Sound e.toState) (hr : Ready e.toState) (c : HostCycle) (i : WinIdx) :
    Sound (e.acceptRefused c i).toState := by
  obtain ⟨hheld, hg⟩ := hr.granted h.toBlocks
  refine h.withHost (.free rfl rfl rfl hheld hg fun hd => ?_) fun hb => by cases hb
  rw [hr.hd] at hd
  cases hd

theorem Event.accept_sound (h : Sound e.toState) (hr : Ready e.toState) (c : HostCycle) : Sound (e.accept c).toState := by
  have hm : Sound (e.on markAccepted).toState := markAccepted_sound h
  have hrm : Ready (e.on markAccepted).toState := hr.markAccepted
  unfold Event.accept
  dsimp only
  split
  next i hc =>
    obtain ⟨hd, hl, hp, -⟩ := classify_window hc
    exact Event.acceptPublish_sound hm hrm i hd hl (hp rfl)
  next i hc =>
    obtain ⟨hd, -⟩ := classify_window hc
    refine Event.requestDiverged_sound (e := (e.on markAccepted).on _) ?_ i
    exact enterRequesting_sound hm hrm (record_sound (by simp [hd]) (by simp) (by simp))
  next i hc =>
    obtain ⟨hd, -⟩ := classify_window hc
    refine Event.requestStale_sound (e := (e.on markAccepted).on _) ?_ i
    exact enterRequesting_sound hm hrm (record_sound (by simp [hd]) (by simp) (by simp))
  next i hc => exact Event.acceptRefused_sound hm hrm c i
  next => exact acceptPlain_sound hm hrm c

theorem Event.acceptPresented_sound (h : Sound e.toState) : Sound e.acceptPresented.toState := by
  rcases e.acceptPresented_cases with ⟨c, -, hc, he⟩ | ⟨-, he⟩
  · rw [he]
    exact Event.accept_sound h (ready_of_canAccept h hc) c
  · rw [he]
    exact h

theorem presentCycle_sound (h : Sound s) (c : HostCycle) : Sound (presentCycle c s) :=
  h.withHost (h.host.congr rfl rfl rfl (fun q => ⟨q.delay, q.herr, q.hd⟩) fun f hd => ⟨rfl, (f hd).2⟩) .inl

theorem signalRefused_sound (h : Sound s) (hd : s.host.refusedDelay = true) : Sound (signalRefused s) := by
  refine h.withHost ?_ .inl
  have loud (q : s.host.Quiet) : False := by cases hd.symm.trans q.delay
  exact h.host.congr rfl rfl rfl (fun q => (loud q).elim) id

theorem releaseStrobe_sound (h : Sound s) : Sound (releaseStrobe s) :=
  h.withHost (h.host.congr rfl rfl rfl (fun q => ⟨q.delay, q.herr, rfl⟩) fun _ hd => by cases hd) .inl

/-! ## Completions and timers -/

theorem blocks_of_served {c : MemCycle} {v : HostPath} (h : Blocks s) (hv : HostOk v s.pq.held none) :
    Blocks ((memoryServed c s).withHost v) := by
  rcases memoryServed_cases c s with hs | ⟨-, hs⟩
  · rw [hs]
    exact ⟨h.pq, h.aq, h.fifo, h.starvation, h.flight, hv, h.link⟩
  · rw [hs]
    exact ⟨h.pq, h.aq, h.fifo, h.starvation, h.flight, hv, h.link⟩

theorem sound_of_served {c : MemCycle} {v : HostPath} (h : Sound s) (hv : HostOk v s.pq.held none)
    (hh : v.hold = .publishHold → s.host.hold = .publishHold) : Sound ((memoryServed c s).withHost v) := by
  have b := blocks_of_served (c := c) h.toBlocks hv
  refine h.keep b ?_ ?_ ?_ ?_ fun hb => .inl (hh hb)
  all_goals rcases memoryServed_cases c s with hs | ⟨-, hs⟩
  all_goals rw [hs]
  · rfl
  · rfl
  · rfl
  · rfl
  · exact fun _ => id
  · exact fun _ => id
  · exact fun _ => id
  · exact fun _ => id

theorem memoryServed_host (c : MemCycle) (s : State) : (memoryServed c s).host = s.host := by
  rcases memoryServed_cases c s with hs | ⟨-, hs⟩
  · rw [hs]; rfl
  · rw [hs]; rfl

theorem Event.memoryDone_sound (h : Sound s) {c : MemCycle} (hc : s.arb.cycle = some c) (sd : Word) :
    Sound ((Event.begin s).memoryDone c sd).toState := by
  have hgr : s.granted = some c.grant := by simp [State.granted, hc]
  cases hg : c.grant with
  | host =>
    rw [(Event.begin s).memoryDone_of_host sd hg]
    refine Event.acceptPresented_sound (e := ((Event.begin s).on _).on _) ?_
    have hk := h.host
    rw [hgr, hg] at hk
    change Sound ((memoryServed c s).withHost _)
    rw [show ((Event.begin s).on (memoryServed c)).host = s.host from memoryServed_host c s]
    exact sound_of_served h hk.complete fun hb => by cases hb
  | apply =>
    rw [(Event.begin s).memoryDone_of_apply sd hg]
    refine Event.applyWordDone_sound (e := (Event.begin s).on _) ?_
    change Sound (memoryServed c s)
    rw [← State.withHost_self (memoryServed c s), memoryServed_host]
    refine sound_of_served h (h.host.regrant ?_ (by simp)) id
    rw [hgr, hg]
    simp

theorem retryAnnounce_sound (h : Sound s) : Sound (retryAnnounce s) := by
  refine h.keep (h.toBlocks.withOrig (h.flight.congr rfl rfl rfl rfl)) rfl ?_ (fun _ => id) (fun _ => id) .inl
  exact Option.isSome_map ..

theorem endBackoff_sound (h : Sound s) : Sound (s.withOrig { s.orig with backoff := none }) := by
  obtain ⟨done, todo, hf⟩ := h.flight
  exact h.of_blocks (h.toBlocks.withOrig ⟨done, todo, hf.endBackoff⟩) rfl rfl rfl rfl rfl

theorem endTransmission_sound (h : Sound s) : Sound (s.withOut { s.out with sending := none }) :=
  h.of_blocks (h.toBlocks.withOut h.fifo h.starvation) rfl rfl rfl rfl rfl

/-! ## The resets (R16, R158, R185) -/

theorem enterHardReset_sound (h : Sound s) : Sound (enterHardReset s) := by
  have hb : Blocks (enterHardReset s) := by
    refine ⟨⟨Nat.zero_le _, Nat.zero_le _, fun c p hp => ?_, by rintro r ⟨⟩⟩, aqOk_nil, Nat.zero_le _, Nat.zero_le _,
      flightOk_nil _ rfl rfl rfl, h.host.reset, ?_⟩
    · fin_cases c
      all_goals cases hp
    · simp [LinkLaw, enterHardReset, LinkInterface.reset]
  refine ⟨hb, modeLaw_of_offline rfl rfl rfl rfl fun hh => ?_, fun hl => (by cases hl), fun _ => ⟨?_, ?_⟩, fun hl => by cases hl⟩
  · obtain ⟨c, r, -, -, -, -, hr, -⟩ := hb.held hh
    cases hr
  · exact Nat.zero_lt_succ _
  · exact Nat.zero_lt_succ _

theorem leaveHardReset_sound (h : Sound s) (straps : NodeId) : Sound (leaveHardReset straps s) := by
  obtain ⟨h1, h2, h3, h4, h5, h6, h7, -, -⟩ := h.link
  refine ⟨⟨h.pq, h.aq, h.fifo, h.starvation, h.flight, h.host, ⟨h1, h2, h3, h4, h5, h6, h7, ?_, ?_⟩⟩, h.mode, h.level⟩
  · simp [leaveHardReset]
  · intro hr
    cases hr

/-- The part of a soft reset after the queues are discarded leaves an OFFLINE node. -/
theorem softResetRest_sound (queues : Blocks s) (hpq : s.pq.total = 0) (hflight : s.orig.flight = [])
    (hheld : s.host.hold ≠ .publishHold) :
    Sound (softResetNode (softResetLinks (resetSources (voidWaiting (fun _ => true)
      (zeroUpdates (softResetOrigination s)))))) := by
  have reset : Blocks (zeroUpdates (softResetOrigination s)) :=
    Blocks.withWindows (queues.withOrig (v := { s.orig with announce := none, staleReturns := 0 })
      (queues.flight.congr rfl rfl rfl rfl)) _
  obtain ⟨hb1, hb2, -, -, hb5, hb6, hb7⟩ := voidWaiting_blocks reset fun _ => true
  have horig : (voidWaiting (fun _ => true) (zeroUpdates (softResetOrigination s))).orig =
      { s.orig with announce := none, staleReturns := 0 } := voidWaiting_orig ..
  have hvoid : (voidWaiting (fun _ => true) (zeroUpdates (softResetOrigination s))).pq = s.pq := voidWaiting_pq ..
  have hhold : (voidWaiting (fun _ => true) (zeroUpdates (softResetOrigination s))).host.hold ≠ .publishHold :=
    fun hh => hheld (voidWaiting_held (s := zeroUpdates (softResetOrigination s)) hh)
  generalize voidWaiting (fun _ => true) (zeroUpdates (softResetOrigination s)) = u at *
  refine ⟨⟨hb1, hb2, Nat.zero_le _, Nat.zero_le _, hb5, hb6, hb7⟩, modeLaw_of_offline rfl ?_ ?_ ?_ hhold,
    fun hl => (by cases hl), fun _ => ⟨Nat.zero_lt_succ _, Nat.zero_lt_succ _⟩, fun hl => by cases hl⟩
  · exact (congrArg PublishQueue.total hvoid).trans hpq
  · exact (congrArg Origination.flight horig).trans hflight
  · exact congrArg Origination.announce horig

theorem softened_sound (h : Sound e.toState) : Sound (softened e).toState := by
  refine softResetRest_sound
    (Event.discardFlight_blocks (Event.discardPq_blocks (Event.demoteUnpublished_blocks h.toBlocks))) ?_ ?_ ?_
  · rw [Event.discardFlight_pq, Event.discardPq_total]
  · rw [Event.discardFlight_orig]
  · rw [Event.discardFlight_host, Event.discardPq_host]
    exact Event.demoteUnpublished_held_iff

theorem Event.clearAttention_sound (h : Sound e.toState) : Sound e.clearAttention.toState :=
  h.congr rfl rfl rfl rfl rfl rfl rfl rfl rfl

theorem Event.softReset_sound (h : Sound e.toState) : Sound e.softReset.toState := by
  rw [Event.softReset_eq]
  exact Event.clearAttention_sound (softened_sound h)

/-! ## Management commands -/

theorem Event.flushClass_sound (h : Sound e.toState) (c : PrioClass) : Sound (e.flushClass c).toState := by
  refine Event.drainCheck_sound (Event.roomCheck_sound (Event.requestDivergedAll_sound (e := e.on _) ?_ _))
  have ht := e.pq.total_setClassList c []
  refine h.keep (h.toBlocks.withPq (h.pq.setClassList (by simp) (.inl (Nat.zero_le _)))
    (PublishQueue.setClassList_held ..)) rfl rfl (fun _ h0 => ?_) (fun _ => id) .inl
  rw [h0] at ht
  exact (Nat.add_eq_zero_iff.1 ht).1

theorem startNode_sound (h : Sound s) (hm : s.node.mode = .offline) : Sound (startNode s) := by
  refine ⟨?_, modeLaw_of_joining rfl (h.mode.flight_nil (by rw [hm]; rfl)) rfl, fun hl => (by cases hl),
    fun _ => ⟨Nat.zero_lt_succ _, Nat.zero_lt_succ _⟩, fun hl => by cases hl⟩
  exact ⟨h.pq, h.aq, h.fifo, h.starvation, h.flight.congr rfl rfl rfl rfl, h.host, h.link⟩

/-- STOP in ACTIVE: a held write is demoted as the drain begins (R145). -/
theorem beginDrain_sound (h : Sound s) (hm : s.node.mode = .active) :
    Sound ((Event.begin s).on (setMode .draining)).demoteUnpublished.toState := by
  have hb : Blocks ((Event.begin s).on (setMode .draining)).toState := Blocks.withNode h.toBlocks rfl
  refine ⟨Event.demoteUnpublished_blocks hb, modeLaw_of_draining ?_ ?_ Event.demoteUnpublished_held_iff, ?_⟩
  · simp [setMode]
  · simpa [setMode] using h.mode.announce_none (by simp [hm])
  · have hl := levelLaw_of_unisolated (m := .draining) (h.level.unisolated (by simp [hm])) h.level
    simpa [setMode, LevelLaw] using hl

/-- STOP in JOINING leaves the ring at once (R145). -/
theorem leaveJoin_sound (h : Sound s) (hm : s.node.mode = .joining) :
    Sound (setMode .offline (abandonAnnounce (Event.begin s).discardPq.demoteUnpublished.toState)) := by
  have hb : Blocks (Event.begin s).discardPq.demoteUnpublished.toState :=
    Event.demoteUnpublished_blocks (Event.discardPq_blocks (e := Event.begin s) h.toBlocks)
  have hf := h.mode.flight_nil (by rw [hm]; rfl)
  refine ⟨Blocks.withNode (abandonAnnounce_blocks hb) rfl, modeLaw_of_offline rfl ?_ ?_ rfl ?_, fun _ => rfl, ?_, ?_⟩
  · simp [setMode, abandonAnnounce, Event.demoteUnpublished_total]
  · simpa [setMode, abandonAnnounce] using hf
  · simpa [setMode, abandonAnnounce] using Event.demoteUnpublished_held_iff
  · simpa [setMode, abandonAnnounce] using h.level.2.1
  · simpa [setMode, abandonAnnounce] using h.level.2.2

theorem disableRecord_sound (h : Sound s) (i : WinIdx) : Sound (disableRecord i s) := h.withWindows _

theorem demoteHeldOn_sound (h : Sound s) (i : WinIdx) : Sound (demoteHeldOn i s) := by
  unfold demoteHeldOn
  split
  · exact demotePlain_sound h
  · exact h

theorem voidOfWindow_sound (h : Sound s) (i : WinIdx) : Sound (voidOfWindow i s) := by
  unfold voidOfWindow
  split
  · exact voidWaiting_sound h _
  · exact h

theorem Command.event_sound (h : Sound s) {m : Command} {args : List Byte} (he : m.event args s = some e) :
    Sound e.toState := by
  have start : Sound (Event.begin s).toState := h
  cases m with
  | softReset =>
    have hs : (Event.begin s).softReset = e := Option.some.inj he
    rw [← hs]
    exact Event.softReset_sound start
  | disableWindow =>
    simp only [Command.event] at he
    split at he
    · obtain ⟨-, ⟨⟩⟩ := Option.ite_none_right_eq_some.1 he
      exact voidOfWindow_sound (demoteHeldOn_sound (disableRecord_sound h _) _) _
    · cases he
  | flush =>
    simp only [Command.event] at he
    split at he
    · obtain ⟨-, ⟨⟩⟩ := Option.ite_none_left_eq_some.1 he
      exact Event.flushClass_sound start _
    · cases he
  | start =>
    simp only [Command.event] at he
    obtain ⟨hm, he⟩ := Option.ite_none_left_eq_some.1 he
    obtain ⟨-, ⟨⟩⟩ := Option.ite_none_left_eq_some.1 he
    exact startNode_sound h (by simpa using hm)
  | stop =>
    simp only [Command.event] at he
    split at he
    next hm =>
      cases he
      exact Event.drainCheck_sound (beginDrain_sound h hm)
    next hm =>
      cases he
      exact leaveJoin_sound h hm
    · cases he
    · cases he
  | _ => cases he

theorem Sound.withMgmt (h : Sound s) (v : ManagementPort) : Sound (s.withMgmt v) :=
  h.congr rfl rfl rfl rfl rfl rfl rfl rfl rfl

theorem Sound.withAttn (h : Sound s) (v : Attention) : Sound (s.withAttn v) :=
  h.congr rfl rfl rfl rfl rfl rfl rfl rfl rfl

theorem executeCommand_sound (h : Sound s) (m : Command) (args : List Byte) : Sound (executeCommand m args s) := by
  rw [executeCommand_eq, Command.effect_fst]
  refine Sound.withMgmt ?_ _
  rcases he : m.event args s with _ | e
  · rw [Option.elim_none]
    rcases m.direct_cases args s with hd | ⟨-, hm, p, hd⟩ | ⟨-, i, w, -, -, -, hd⟩ | ⟨-, i, -, -, -, hd⟩ |
      ⟨-, i, hd⟩ | ⟨-, f, hd⟩ | ⟨-, f, hd⟩ | ⟨-, hd⟩
    all_goals rw [hd]
    · exact h
    · have hf := h.mode.flight_nil (by rw [hm]; rfl)
      exact ⟨⟨h.pq, h.aq, h.fifo, h.starvation, h.flight.of_nil hf _, h.host, h.link⟩, h.mode, h.level⟩
    · exact h.withWindows _
    · exact h.withWindows _
    · exact h.withWindows _
    · exact h.withAttn _
    · exact h.withAttn _
    · exact h.withMgmt _
  · rw [Option.elim_some]
    exact Event.finish_sound (Command.event_sound h he)

/-! ## Every command -/

theorem broughtEvent_sound (h : Sound s) {c : Instr} (he : broughtEvent c s = some e) : Sound e.toState := by
  have start : Sound (Event.begin s).toState := h
  cases c with
  | hostCycleAcceptance addr dir lanes data =>
    cases he
    refine Event.acceptPresented_sound (e := (Event.begin s).on _) ?_
    exact presentCycle_sound h _
  | refusedWriteCompletion =>
    obtain ⟨hd, ⟨⟩⟩ := Option.ite_none_right_eq_some.1 he
    refine Event.acceptPresented_sound (e := (Event.begin s).on _) ?_
    exact signalRefused_sound h hd.2
  | memoryCycleCompletion sd =>
    obtain ⟨m, hm, rfl⟩ := Option.map_eq_some_iff.1 he
    exact Event.memoryDone_sound h hm sd
  | publishHoldExpiry =>
    obtain ⟨-, ⟨⟩⟩ := Option.ite_none_right_eq_some.1 he
    exact Event.expirePublishHold_sound start
  | lossOfSignal =>
    obtain ⟨-, ⟨⟩⟩ := Option.ite_none_right_eq_some.1 he
    exact Event.loseSignal_sound start
  | linkUp =>
    obtain ⟨hr, ⟨⟩⟩ := Option.ite_none_right_eq_some.1 he
    refine Event.enterUp_sound (e := (Event.begin s).on _) ?_ hr.1
    exact stampTransition_sound h
  | alignmentLost =>
    obtain ⟨hr, ⟨⟩⟩ := Option.ite_none_right_eq_some.1 he
    refine Event.loseAlignment_sound (e := Event.begin (runBegins s)) (runBegins_sound h) ?_
    exact (runBegins_fixed s).1.trans hr.1
  | frameCutOff sym =>
    obtain ⟨hr, he⟩ := Option.ite_none_right_eq_some.1 he
    have stamped : Sound ((Event.begin s).on stampTransition).toState := stampTransition_sound h
    cases sym with
    | startFrame => cases he; exact Event.validInUp_sound stamped hr.2.1 _
    | idle => cases he; exact Event.validInUp_sound stamped hr.2.1 _
    | data v =>
      cases he
      refine Event.cutOff_sound (e := Event.on _ _) ?_
      exact clearInvalid_sound stamped
    | invalid => cases he; exact Event.invalidInUp_sound start hr.1
    | endFrame => cases he
  | frameArrival bytes =>
    obtain ⟨-, ⟨⟩⟩ := Option.ite_none_right_eq_some.1 he
    refine Event.frameEnd_sound (e := Event.on _ _) ?_ bytes
    exact clearInvalid_sound (stampTransition_sound h)
  | transmissionCompletion =>
    obtain ⟨-, ⟨⟩⟩ := Option.ite_none_right_eq_some.1 he
    exact endTransmission_sound h
  | returnTimerExpiry =>
    obtain ⟨-, ⟨⟩⟩ := Option.ite_none_right_eq_some.1 he
    exact Event.goBackReported_sound start _ _
  | announceTimerExpiry =>
    obtain ⟨-, ⟨⟩⟩ := Option.ite_none_right_eq_some.1 he
    refine Event.report_sound (e := (Event.begin s).on _) ?_ _
    exact retryAnnounce_sound h
  | backoffExpiry =>
    obtain ⟨-, ⟨⟩⟩ := Option.ite_none_right_eq_some.1 he
    exact endBackoff_sound h
  | symbolReceived group =>
    obtain ⟨hr, ⟨⟩⟩ := Option.ite_none_right_eq_some.1 he
    split
    · exact Event.symbol_sound (e := Event.begin _) (stampTransition_sound h) hr.1 _
    · exact Event.symbol_sound start hr.1 _
  | hardReset =>
    obtain ⟨-, ⟨⟩⟩ := Option.ite_none_right_eq_some.1 he
    exact enterHardReset_sound h
  | resetRelease straps =>
    obtain ⟨-, ⟨⟩⟩ := Option.ite_none_left_eq_some.1 he
    refine Event.acceptPresented_sound (e := (Event.begin s).on _) ?_
    exact leaveHardReset_sound h straps
  | _ => cases he

/-- Every command keeps the invariant. -/
theorem exec_sound {c : Instr} (h : Sound s) (he : exec c s = .next t) : Sound t := by
  cases outcome_of_exec he with
  | unchanged => exact h
  | event e hb => exact Event.finish_sound (broughtEvent_sound h hb)
  | executed m args => exact executeCommand_sound (h.withMgmt _) m args
  | advanced => exact ⟨Blocks.withNode h.toBlocks rfl, h.mode, h.level⟩
  | detected hr =>
    obtain ⟨h1, h2, h3, h4, h5, h6, h7, h8, -⟩ := h.link
    by_cases hi : s.link.inbound = .noSignal
    · have ha : s.link.assembly.isSome ≠ true := fun ha => by cases hi.symm.trans (h1 ha)
      refine h.withLink ⟨fun hx => absurd hx ha, h2, h3, ?_, h5, fun _ => ?_, fun hu => ?_, h8, fun hn => ?_⟩
      · simp [hi]
      · simp [hi]
      · simp [hi] at hu
      · cases hr.symm.trans hn
    · simp only [hi, if_false]
      exact h.withLink ⟨h1, h2, h3, h4, h5, h6, h7, h8, fun hn => by cases hr.symm.trans hn⟩
  | released => exact releaseStrobe_sound h
  | port m => exact h.withMgmt m
  | removed =>
    exact Sound.withMgmt (h.withAttn _) _

end Kept

end Sys2Proof.Machine
end

section
/-! SUPPORT. The other laws: the Incident Queue and the transaction, the state under RESET_N low, and the choices that
the end of a moment leaves made; with O57 and O58. -/

namespace Sys2Proof.Machine

section Laws
variable {c : Instr} {s t : State} {e : Event}

/-! ## The Incident Queue and the transaction -/

/-- The part of the laws that incidents and transactions concern. -/
structure Attended (s : State) : Prop where
  queue : s.attn.queue.length ≤ 8
  port : PortLaw s

theorem Attended.congr (h : Attended s) (ha : t.attn = s.attn) (hm : t.mgmt = s.mgmt) : Attended t :=
  ⟨by rw [ha]; exact h.queue, by rw [PortLaw, ha, hm]; exact h.port⟩

/-- A commitment changes of the Management Port at most the drop flag (R166). -/
theorem Event.commit_mgmt (e : Event) :
    ∃ d, e.commit.mgmt = { e.mgmt with txn := { e.mgmt.txn with dropFlag := d } } := by
  refine e.commit_induct (motive := fun s => ∃ d, s.mgmt = { e.mgmt with txn := { e.mgmt.txn with dropFlag := d } })
    ⟨e.mgmt.txn.dropFlag, rfl⟩ fun s o ⟨d, hs⟩ => ?_
  obtain ⟨a, m, h, -, -, hm⟩ := appendIncident_eq s o
  exact ⟨m.txn.dropFlag, by rw [h, State.withMgmt_mgmt, hm, hs]⟩

/-- A record appended leaves a pending removal at the head of the queue; one dropped sets the drop flag only beside a
pending removal (R166, R173). -/
theorem appendIncident_attended (h : Attended s) (o : Occurrence) : Attended (appendIncident s o) := by
  refine ⟨appendIncident_queue_length s o h.queue, ?_⟩
  obtain ⟨h1, h2, h3, h4, h5, h6, h7, h8⟩ := h.port
  unfold appendIncident
  dsimp only
  split
  · refine ⟨h1, h2, h3, h4, h5, h6, fun hr => ?_, h8⟩
    obtain ⟨hc, hq⟩ := h7 hr
    refine ⟨hc, ?_⟩
    obtain ⟨x, hx⟩ := Option.isSome_iff_exists.1 hr
    have hhead : s.attn.queue.head? = some x := by rw [← hq]; exact hx
    obtain ⟨rest, hrest⟩ := List.head?_eq_some_iff.1 hhead
    refine hq.trans ?_
    change s.attn.queue.head? = (s.attn.queue ++ [_]).head?
    rw [hrest]
    rfl
  · have idle (hp : s.mgmt.txn.removal = none) : (s.mgmt.txn.dropFlag || s.mgmt.txn.removal.isSome) = s.mgmt.txn.dropFlag := by
      simp [hp]
    refine ⟨fun hd => ?_, h2, fun hr => ?_, h4, h5, h6, h7, h8⟩
    · have ht := h1 hd
      have hdrop := idle (by rw [ht]; rfl)
      simp only [State.withMgmt_mgmt, hdrop]
      exact ht
    · obtain ⟨ha, hb, hc, hx⟩ := h3 hr
      exact ⟨ha, hb, (idle hb).trans hc, hx⟩

theorem Event.commit_attended (h : Attended e.toState) : Attended e.commit :=
  e.commit_induct (motive := Attended) h fun _ o hs => appendIncident_attended hs o

theorem Event.finish_attended (h : Attended e.toState) : Attended e.finish :=
  (Event.commit_attended h).congr e.finish_attn e.finish_mgmt

theorem runBegins_attended (h : Attended s) : Attended (runBegins s) := by
  rcases runBegins_cases s with hs | ⟨e, hk, hs⟩
  · rw [hs]; exact h
  · rw [hs]
    exact Event.commit_attended (h.congr hk.attn hk.mgmt)

theorem broughtEvent_attended (h : Attended s) (he : broughtEvent c s = some e) : Attended e.toState := by
  have hk := broughtEvent_keeps he
  refine Attended.congr (s := eventBase c s) ?_ hk.attn hk.mgmt
  rcases eventBase_cases he with hb | ⟨sd, m, -, -, hb⟩ | ⟨-, hb⟩ | ⟨-, -, hb⟩ | ⟨straps, -, -, hb⟩
  all_goals rw [hb]
  · exact h
  · rcases memoryServed_cases m s with hs | ⟨-, hs⟩
    · rw [hs]; exact h.congr rfl rfl
    · rw [hs]; exact h.congr rfl rfl
  · exact runBegins_attended h
  · exact ⟨Nat.zero_le _, portLaw_ended (enterHardReset s) _ _⟩
  · exact h.congr rfl rfl

/-- Every response begins with its status (R179). -/
theorem Command.response_ne_nil (m : Command) (args : List Byte) (s : State) : (m.effect args s).2 ≠ [] := by
  have indexed (n : Byte) (f : Fin 16 → State × List Byte) (hf : ∀ i, (f i).2 ≠ []) : (withIndex n s f).2 ≠ [] := by
    unfold withIndex
    split
    · exact hf _
    · simp
  cases m with
  | ident | status | readParams | softReset | readEvents | takeIncident | unknown => simp [Command.effect, identEffect,
      statusEffect, readParamsEffect, softResetEffect, readEventsEffect, takeIncidentEffect]
  | setParams =>
    unfold Command.effect setParamsEffect
    dsimp only
    split
    · simp
    · split
      · simp
      · split
        · simp
        · split
          · simp
          · simp
  | readWindow => exact indexed _ _ fun i => by simp
  | writeWindow =>
    refine indexed _ _ fun i => ?_
    split
    · simp
    · split
      · split
        · simp
        · simp
      · simp
  | enableWindow =>
    refine indexed _ _ fun i => ?_
    split
    · simp
    · split
      · simp
      · split
        · simp
        · simp
  | disableWindow =>
    refine indexed _ _ fun i => ?_
    split
    · simp
    · simp
  | clearWindow => exact indexed _ _ fun i => by simp
  | flush =>
    unfold Command.effect flushEffect
    dsimp only
    split
    · split
      · simp
      · simp
    · simp
  | readSource => exact indexed _ _ fun i => by simp
  | start =>
    unfold Command.effect startEffect
    dsimp only
    split
    · simp
    · split
      · simp
      · simp
  | stop =>
    unfold Command.effect stopEffect
    dsimp only
    split
    · simp
    · simp
    · simp
    · simp
  | setEnables =>
    unfold Command.effect setEnablesEffect
    dsimp only
    split
    · simp
    · simp
  | ackEvents =>
    unfold Command.effect ackEventsEffect
    dsimp only
    split
    · simp
    · simp

/-- What an execution makes of the port and the queue: TAKE_INCIDENT alone holds a removal pending, that of the head. -/
theorem Command.effect_port (m : Command) (args : List Byte) (hq : s.attn.queue.length ≤ 8)
    (hr : s.mgmt.txn.removal = none) :
    (m.effect args s).1.attn.queue.length ≤ 8 ∧ (m.effect args s).1.mgmt.mselN = s.mgmt.mselN ∧
    ((m.effect args s).1.mgmt.txn.removal.isSome = true → m = .takeIncident ∧
      (m.effect args s).1.mgmt.txn.removal = (m.effect args s).1.attn.queue.head?) := by
  rw [Command.effect_fst]
  rcases he : m.event args s with _ | e
  · rw [Option.elim_none]
    rcases m.direct_cases args s with h | ⟨-, -, p, h⟩ | ⟨-, i, w, -, -, -, h⟩ | ⟨-, i, -, -, -, h⟩ | ⟨-, i, h⟩ |
      ⟨-, f, h⟩ | ⟨-, f, h⟩ | ⟨hm, h⟩
    all_goals rw [h]
    case inr.inr.inr.inr.inr.inr.inr => exact ⟨hq, rfl, fun _ => ⟨hm, rfl⟩⟩
    all_goals
      refine ⟨hq, rfl, fun hs => ?_⟩
      have hs : s.mgmt.txn.removal.isSome = true := hs
      simp [hr] at hs
  · rw [Option.elim_some, Event.finish_attn, Event.finish_mgmt]
    have hk := (Command.event_fixed he).1
    obtain ⟨d, hd⟩ := e.commit_mgmt
    have hqe : e.attn.queue.length ≤ 8 := by
      rcases Command.event_cases he with hk | ⟨i, -, hk⟩ | ⟨-, rfl⟩ | ⟨-, t, hk, ht, -⟩
      · rw [hk.attn]; exact hq
      · rw [hk.attn]; exact hq
      · exact hq
      · rw [ht]; exact Nat.zero_le _
    refine ⟨?_, by rw [hd, hk.mgmt], fun hs => ?_⟩
    · exact e.commit_induct (motive := fun u => u.attn.queue.length ≤ 8) hqe fun u o hu =>
        appendIncident_queue_length u o hu
    · rw [hd, hk.mgmt] at hs
      simp [hr] at hs

theorem executeCommand_attended (h : Attended s) (hp : s.mgmt.txn.port = .receiving) (m : Command)
    (args : List Byte) : Attended (executeCommand m args s) := by
  obtain ⟨-, h2, h3, -, -, -, -, -⟩ := h.port
  obtain ⟨-, hr, -⟩ := h3 hp
  obtain ⟨hq, hsel, hrem⟩ := Command.effect_port m args h.queue hr
  have hlow : (m.effect args s).1.mgmt.mselN = false := hsel.trans (h2 (by simp [hp]))
  rw [executeCommand_eq]
  refine ⟨hq, fun hd => (by cases hd), fun _ => hlow, fun hd => (by cases hd), fun _ => ⟨rfl, rfl, ?_⟩,
    fun hd => (by cases hd), Nat.zero_lt_succ _, fun hs => ?_, fun _ => hlow⟩
  · have := List.length_pos_iff.2 (m.response_ne_nil args s)
    change 0 < 8 * (m.effect args s).2.length
    omega
  · obtain ⟨hm, hq⟩ := hrem hs
    exact ⟨congrArg some hm, hq⟩

theorem exec_attended (h : Attended s) (held : ResetHeld s) (he : exec c s = .next t) : Attended t := by
  cases outcome_of_exec he with
  | unchanged => exact h
  | event e hb => exact Event.finish_attended (broughtEvent_attended h hb)
  | executed m args _ hp => exact executeCommand_attended (s := setMclk true s) ⟨h.queue, portLaw_setMclk true h.port⟩ hp m args
  | advanced => exact h.congr rfl rfl
  | detected => exact h.congr rfl rfl
  | released => exact h.congr rfl rfl
  | port m hl => exact ⟨h.queue, hl held h.port⟩
  | removed =>
    refine ⟨?_, portLaw_ended (removeIncident s) _ _⟩
    change s.attn.queue.tail.length ≤ 8
    rw [List.length_tail]
    exact (Nat.sub_le _ _).trans h.queue

/-! ## Under RESET_N low (R158) -/

/-- What `ResetHeld` asks of the blocks while RESET_N is low. -/
def HeldDown (s : State) : Prop :=
  s.host.hold = .noHold ∧ s.host.holdMark = 0 ∧ s.host.holdStart = 0 ∧ s.host.refusedDelay = false ∧
  s.host.herr = false ∧ s.windows = Vector.replicate 16 Window.reset ∧ s.pq = PublishQueue.reset ∧
  s.orig = Origination.reset ∧ s.link = LinkInterface.reset ∧ s.out = OutputArbiter.reset ∧
  s.sources = Vector.replicate 16 SeqEntry.reset ∧ s.aq = ApplyQueue.reset ∧
  s.node = { NodeControl.reset with nodeId := s.node.nodeId } ∧ s.attn = Attention.reset ∧
  s.mgmt.txn = Transaction.idle ∧ s.mgmt.mdo = none

theorem resetHeld_iff : ResetHeld s ↔ (s.resetN = false → HeldDown s) := Iff.rfl

/-- A FREE port with an empty Apply Queue grants nothing to it. -/
theorem arbitrate_aq_of_nil (h : s.aq.entries = []) : (arbitrate s).aq = s.aq := by
  unfold arbitrate
  split
  · rfl
  · split
    · unfold grantCycle
      dsimp only
      split
      · rfl
      · change { s.aq with entries := markHeadWriting s.aq.entries } = s.aq
        rw [h]
        change { s.aq with entries := [] } = s.aq
        rw [← h]
    · rfl

/-- A grant changes of the Host Path its path state alone. -/
theorem arbitrate_host (s : State) : ∃ p, (arbitrate s).host = { s.host with path := p } := by
  obtain ⟨a, p, q, h⟩ := arbitrate_eq s
  exact ⟨p, by rw [h]; rfl⟩

theorem choices_heldDown (h : HeldDown s) : HeldDown (choices s) := by
  obtain ⟨h1, h2, h3, h4, h5, h6, h7, h8, h9, h10, h11, h12, h13, h14, h15, h16⟩ := h
  rw [choices_of_busy (.inr (by rw [h9]; rfl))]
  obtain ⟨p, hp⟩ := arbitrate_host s
  have ha := arbitrate_aq_of_nil (s := s) (by rw [h12]; rfl)
  rw [HeldDown, hp, ha, arbitrate_windows, arbitrate_pq, arbitrate_orig, arbitrate_link, arbitrate_out,
    arbitrate_sources, arbitrate_node, arbitrate_attn, arbitrate_mgmt]
  exact ⟨h1, h2, h3, h4, h5, h6, h7, h8, h9, h10, h11, h12, h13, h14, h15, h16⟩

theorem Event.finish_heldDown (h : HeldDown e.toState) (hr : e.resetN = false) : HeldDown e.finish := by
  have hc : e.commit = e.toState := by simp [Event.commit, hr]
  rcases hm : e.moments with _ | ⟨_ | k, later⟩
  · rw [e.finish_of_alone hm, hc]
    exact choices_heldDown h
  · rw [e.finish_of_last hm, hc]
    exact choices_heldDown (s := e.toState.withMoments later) h
  · rw [e.finish_of_shared hm, hc]
    exact h

theorem enterHardReset_heldDown (s : State) : HeldDown (enterHardReset s) := by
  have hhost (h : HostPath) : h.hardReset.hold = .noHold ∧ h.hardReset.holdMark = 0 ∧ h.hardReset.holdStart = 0 ∧
      h.hardReset.refusedDelay = false ∧ h.hardReset.herr = false := by
    unfold HostPath.hardReset
    dsimp only
    split
    next hh => exact ⟨hh, rfl, rfl, rfl, rfl⟩
    · exact ⟨rfl, rfl, rfl, rfl, rfl⟩
    · exact ⟨rfl, rfl, rfl, rfl, rfl⟩
  obtain ⟨h1, h2, h3, h4, h5⟩ := hhost s.host
  exact ⟨h1, h2, h3, h4, h5, rfl, rfl, rfl, rfl, rfl, rfl, rfl, rfl, rfl, rfl, rfl⟩

/-- While RESET_N is low no cycle is accepted (R2). -/
theorem Event.acceptPresented_of_reset (e : Event) (hr : e.resetN = false) : e.acceptPresented = e := by
  rcases e.acceptPresented_cases with ⟨c, -, hc, -⟩ | ⟨-, he⟩
  · simp [canAccept, hr] at hc
  · exact he

/-- While RESET_N is low the events are a cycle presented, the completion of a memory cycle, and the rise of
RESET_N. -/
theorem broughtEvent_heldDown (h : HeldDown s) (hr : s.resetN = false) (he : broughtEvent c s = some e)
    (het : e.resetN = false) : HeldDown e.toState := by
  have high (h : s.resetN = true) : False := by cases hr.symm.trans h
  obtain ⟨h1, h2, h3, h4, h5, h6, h7, h8, h9, h10, h11, h12, h13, h14, h15, h16⟩ := id h
  cases c with
  | hostCycleAcceptance addr dir lanes data =>
    cases he
    rw [Event.acceptPresented_of_reset _ hr]
    exact h
  | refusedWriteCompletion =>
    obtain ⟨hd, -⟩ := Option.ite_none_right_eq_some.1 he
    exact (high hd.1).elim
  | memoryCycleCompletion sd =>
    obtain ⟨m, hm, rfl⟩ := Option.map_eq_some_iff.1 he
    have served : HeldDown (memoryServed m s) := by
      rcases memoryServed_cases m s with hs | ⟨-, hs⟩
      · rw [hs]; exact h
      · rw [hs]; exact h
    cases hg : m.grant with
    | host =>
      have hrs : (memoryServed m s).resetN = false := by
        rcases memoryServed_cases m s with hs | ⟨-, hs⟩
        · rw [hs]; exact hr
        · rw [hs]; exact hr
      obtain ⟨k1, k2, k3, k4, k5, k⟩ := served
      rw [(Event.begin s).memoryDone_of_host sd hg, Event.acceptPresented_of_reset _ hrs]
      exact ⟨rfl, k2, k3, k4, rfl, k⟩
    | apply =>
      rw [(Event.begin s).memoryDone_of_apply sd hg]
      have hq : ((Event.begin s).on (memoryServed m)).aq.entries = [] := by
        obtain ⟨-, -, -, -, -, -, -, -, -, -, -, hq, -⟩ := served
        exact congrArg ApplyQueue.entries hq
      rw [show ((Event.begin s).on (memoryServed m)).applyWordDone = (Event.begin s).on (memoryServed m) by
        unfold Event.applyWordDone
        rw [hq]]
      exact served
  | publishHoldExpiry =>
    obtain ⟨hd, -⟩ := Option.ite_none_right_eq_some.1 he
    simp [publishHoldDue, h1] at hd
  | lossOfSignal =>
    obtain ⟨hd, -⟩ := Option.ite_none_right_eq_some.1 he
    simp [lossOfSignalDue, hr] at hd
  | linkUp =>
    obtain ⟨hd, -⟩ := Option.ite_none_right_eq_some.1 he
    exact (high hd.1).elim
  | alignmentLost =>
    obtain ⟨hd, -⟩ := Option.ite_none_right_eq_some.1 he
    exact (high hd.1).elim
  | frameCutOff sym =>
    obtain ⟨hd, -⟩ := Option.ite_none_right_eq_some.1 he
    exact (high hd.1).elim
  | frameArrival bytes =>
    obtain ⟨hd, -⟩ := Option.ite_none_right_eq_some.1 he
    simp [canArrive, hr] at hd
  | transmissionCompletion =>
    obtain ⟨hd, -⟩ := Option.ite_none_right_eq_some.1 he
    simp [h10, OutputArbiter.reset] at hd
  | returnTimerExpiry =>
    obtain ⟨hd, -⟩ := Option.ite_none_right_eq_some.1 he
    simp [returnTimerDue, h8, Origination.reset] at hd
  | announceTimerExpiry =>
    obtain ⟨hd, -⟩ := Option.ite_none_right_eq_some.1 he
    simp [announceTimerDue, h8, Origination.reset] at hd
  | backoffExpiry =>
    obtain ⟨hd, -⟩ := Option.ite_none_right_eq_some.1 he
    simp [backoffDue, h8, Origination.reset] at hd
  | symbolReceived group =>
    obtain ⟨hd, -⟩ := Option.ite_none_right_eq_some.1 he
    exact (high hd.1).elim
  | hardReset =>
    obtain ⟨hd, -⟩ := Option.ite_none_right_eq_some.1 he
    exact (high hd).elim
  | resetRelease straps =>
    have hk := (broughtEvent_keeps he).resetN
    cases het.symm.trans hk
  | _ => cases he

theorem exec_resetHeld (h : ResetHeld s) (he : exec c s = .next t) : ResetHeld t := by
  rw [resetHeld_iff] at h ⊢
  intro ht
  cases outcome_of_exec he with
  | unchanged => exact h ht
  | event e hb =>
    rw [Event.finish_resetN] at ht
    refine Event.finish_heldDown ?_ ht
    cases hr : s.resetN with
    | false => exact broughtEvent_heldDown (h hr) hr hb ht
    | true =>
      rcases exec_resetN he with hk | ⟨rfl, -, -⟩ | ⟨straps, -, hk, -⟩
      · rw [Event.finish_resetN, ht, hr] at hk
        cases hk
      · obtain ⟨-, ⟨⟩⟩ := Option.ite_none_right_eq_some.1 hb
        exact enterHardReset_heldDown s
      · cases hr.symm.trans hk
  | executed m args hr =>
    rw [(executeCommand_fixed m args (setMclk true s)).1] at ht
    cases hr.symm.trans ht
  | advanced _ hr => cases hr.symm.trans ht
  | detected hr => cases hr.symm.trans ht
  | released => exact h ht
  | port m _ hh =>
    obtain ⟨h1, h2, h3, h4, h5, h6, h7, h8, h9, h10, h11, h12, h13, h14, h15, h16⟩ := h ht
    obtain ⟨htx, hmd⟩ := hh ht
    exact ⟨h1, h2, h3, h4, h5, h6, h7, h8, h9, h10, h11, h12, h13, h14, htx.trans h15, hmd.trans h16⟩
  | removed _ hr => cases hr.symm.trans ht

/-! ## The end of a moment (R73, R133) -/

theorem Event.sendOffer_sending (e : Event) (o : Offer) : (e.sendOffer o).out.sending.isSome = true := rfl

/-- After the Output Arbiter's choice an idle running link has nothing waiting. -/
theorem Event.chooseOutput_settles (e : Event) (hs : e.chooseOutput.out.sending = none)
    (hl : e.chooseOutput.link.outbound = .running) :
    e.chooseOutput.out.fifo = [] ∧ originationOffer e.chooseOutput.toState = none := by
  have offered (o : Offer) (h : (e.sendOffer o).out.sending = none) : False := by
    have := e.sendOffer_sending o
    rw [h] at this
    cases this
  unfold Event.chooseOutput at hs hl ⊢
  split at hs
  next hb =>
    rw [if_pos hb] at hl ⊢
    rcases hb with hb | hb
    · rw [hs] at hb; cases hb
    · rw [hl] at hb; cases hb
  next hb =>
    rw [if_neg hb]
    split at hs
    · exact (offered _ hs).elim
    next hf ho => exact ⟨hf, ho⟩
    · split at hs
      · exact (offered _ hs).elim
      · cases hs
    · cases hs

/-- After the Memory Arbiter's choice a free port has no request. -/
theorem arbitrate_settles (h : (arbitrate s).arb.cycle = none) :
    hostRequest (arbitrate s) = none ∧ (arbitrate s).aq.entries = [] := by
  unfold arbitrate at h ⊢
  cases hc : s.arb.cycle with
  | some c => rw [hc] at h; cases hc.symm.trans h
  | none =>
    rw [hc] at h
    dsimp only at h ⊢
    cases hch : arbiterChoice s with
    | some c =>
      rw [hch] at h
      dsimp only at h
      unfold grantCycle at h
      cases hg : c.grant with
      | host => simp [hg] at h
      | apply => simp [hg] at h
    | none =>
      dsimp only
      unfold arbiterChoice at hch
      cases ha : applyRequest s with
      | some a =>
        rw [ha] at hch
        dsimp only at hch
        split at hch
        · cases hch
        · split at hch
          · split at hch
            · cases hch
            · cases hch
          · cases hch
      | none =>
        cases hh : hostRequest s with
        | some r => simp [ha, hh] at hch
        | none =>
          refine ⟨rfl, ?_⟩
          simpa [applyRequest] using ha

theorem originationOffer_arbitrate (s : State) : originationOffer (arbitrate s) = originationOffer s := by
  obtain ⟨a, h, q, heq⟩ := arbitrate_eq s
  rw [heq]
  rfl

theorem choices_chosen (s : State) : Chosen (choices s) := by
  refine ⟨fun hs hl => ?_, fun hc => arbitrate_settles hc⟩
  rw [choices, arbitrate_out] at hs
  rw [choices, arbitrate_link] at hl
  rw [choices, arbitrate_out, originationOffer_arbitrate]
  exact Event.chooseOutput_settles _ hs hl

/-- A change that no arbiter looks at. -/
theorem Chosen.congr (h : Chosen s) (ho : t.out = s.out) (hl : t.link.outbound = s.link.outbound)
    (hof : originationOffer t = originationOffer s) (ha : t.arb = s.arb) (hh : hostRequest t = hostRequest s)
    (hq : t.aq = s.aq) : Chosen t := by
  rw [Chosen, ho, hl, hof, ha, hh, hq]
  exact h

theorem Event.finish_moment (e : Event) : MomentLaw e.finish := by
  intro hm
  rcases hk : e.moments with _ | ⟨_ | k, later⟩
  · rw [e.finish_of_alone hk]
    exact choices_chosen _
  · rw [e.finish_of_last hk]
    exact choices_chosen _
  · rw [e.finish_of_shared hk] at hm
    cases hm

theorem Command.direct_chosen (h : Chosen s) (m : Command) (args : List Byte) : Chosen (m.direct args s) := by
  rcases m.direct_cases args s with hd | ⟨-, -, p, hd⟩ | ⟨-, i, w, -, -, -, hd⟩ | ⟨-, i, -, -, -, hd⟩ | ⟨-, i, hd⟩ |
    ⟨-, f, hd⟩ | ⟨-, f, hd⟩ | ⟨-, hd⟩
  all_goals
    rw [hd]
    exact h.congr rfl rfl rfl rfl rfl rfl

theorem Command.direct_moments (m : Command) (args : List Byte) (s : State) : (m.direct args s).moments = s.moments := by
  rcases m.direct_cases args s with hd | ⟨-, -, p, hd⟩ | ⟨-, i, w, -, -, -, hd⟩ | ⟨-, i, -, -, -, hd⟩ | ⟨-, i, hd⟩ |
    ⟨-, f, hd⟩ | ⟨-, f, hd⟩ | ⟨-, hd⟩
  · rw [hd]
  all_goals
    rw [hd]
    rfl

theorem executeCommand_moment (h : MomentLaw s) (m : Command) (args : List Byte) :
    MomentLaw (executeCommand m args s) := by
  rw [executeCommand_eq]
  suffices hm : MomentLaw (m.effect args s).1 from fun hn => (hm hn).congr rfl rfl rfl rfl rfl rfl
  rw [Command.effect_fst]
  cases m.event args s with
  | none =>
    intro hn
    rw [Option.elim_none, Command.direct_moments] at hn
    exact Command.direct_chosen (h hn) m args
  | some e => exact e.finish_moment

theorem exec_moment (h : MomentLaw s) (he : exec c s = .next t) : MomentLaw t := by
  cases outcome_of_exec he with
  | unchanged => exact h
  | event e => exact e.finish_moment
  | executed m args =>
    exact executeCommand_moment (s := setMclk true s) (fun hn => (h hn).congr rfl rfl rfl rfl rfl rfl) m args
  | advanced => exact fun hn => (h hn).congr rfl rfl rfl rfl rfl rfl
  | detected => exact fun hn => (h hn).congr rfl rfl rfl rfl rfl rfl
  | released => exact fun hn => (h hn).congr rfl rfl rfl rfl rfl rfl
  | port => exact fun hn => (h hn).congr rfl rfl rfl rfl rfl rfl
  | removed => exact fun hn => (h hn).congr rfl rfl rfl rfl rfl rfl

/-! ## Every law together -/

/-- The laws of the state as the invariants above. -/
theorem lawful_iff (s : State) :
    Lawful s ↔ MemoryLaw s ∧ WindowLaw s ∧ Sound s ∧ Attended s ∧ ResetHeld s ∧ MomentLaw s := by
  constructor
  · rintro ⟨hmem, hcap, hwin, hmode, hlevel, hhost, hflight, hqueue, hlink, hport, hreset, hmoment, hdrive⟩
    obtain ⟨hs, hq⟩ := (sound_iff s).2 ⟨hcap, hmode, hlevel, hhost, hflight, hqueue, hlink, hdrive⟩
    exact ⟨hmem, hwin, hs, ⟨hq, hport⟩, hreset, hmoment⟩
  · rintro ⟨hmem, hwin, hs, ⟨hq, hport⟩, hreset, hmoment⟩
    obtain ⟨hcap, hmode, hlevel, hhost, hflight, hqueue, hlink, hdrive⟩ := (sound_iff s).1 ⟨hs, hq⟩
    exact ⟨hmem, hcap, hwin, hmode, hlevel, hhost, hflight, hqueue, hlink, hport, hreset, hmoment, hdrive⟩

/-- The queue of waiting commands is in no law. -/
theorem lawful_withPending (h : Lawful s) (q : List Instr) : Lawful (s.withPending q) := by
  obtain ⟨hmem, hwin, hs, ha, hreset, hmoment⟩ := (lawful_iff s).1 h
  exact (lawful_iff _).2 ⟨hmem, hwin, hs.congr rfl rfl rfl rfl rfl rfl rfl rfl rfl, ha.congr rfl rfl, hreset,
    fun hn => (hmoment hn).congr rfl rfl rfl rfl rfl rfl⟩

/-- Every command keeps every law. -/
theorem exec_lawful (h : Lawful s) (he : exec c s = .next t) : Lawful t := by
  obtain ⟨hmem, hwin, hs, ha, hreset, hmoment⟩ := (lawful_iff s).1 h
  exact (lawful_iff t).2 ⟨exec_memoryLaw he hmem, exec_windowLaw he hwin, exec_sound hs he, exec_attended ha hreset he,
    exec_resetHeld hreset he, exec_moment hmoment he⟩

theorem step_lawful (h : Lawful s) (he : step s = .next t) : Lawful t := by
  rcases step_cases he with rfl | ⟨c, rest, -, he⟩
  · exact h
  · exact exec_lawful (lawful_withPending h rest) he

theorem step_moments (he : step s = .next t) : t.moments = s.moments ∨ t.moments = momentsAfter s.moments := by
  rcases step_cases he with rfl | ⟨c, rest, -, he⟩
  · exact .inl rfl
  · exact (exec_pending_moments (s := s.withPending rest) he).2

end Laws

/-- Settles O57: the invariant `Sound` holds the laws of the queues, the mode, the level and the In-Flight List, and
every operation of an event keeps it. -/
theorem queueAndModeLawsAreKept : Obligations.QueueAndModeLawsAreKept := by
  intro s t h he
  obtain ⟨-, hcap, -, hmode, hlevel, -, hflight, hqueue, -⟩ := step_lawful h he
  exact ⟨hcap, hqueue, hmode, hlevel, hflight⟩

/-- Settles O58, from the same invariant, the transaction's law and the choices that every moment ends with. -/
theorem portLawsAreKept : Obligations.PortLawsAreKept := by
  intro s t h he
  obtain ⟨-, -, -, -, -, hhost, -, -, hlink, hport, hreset, hmoment, hdrive⟩ := step_lawful h he
  refine ⟨hhost, hlink, hport, hreset, hmoment, hdrive, fun hset => ?_⟩
  have hm : t.moments = [] := by
    rcases step_moments he with hm | hm
    · rw [hm, hset.1]
    · rw [hm, hset.1]; rfl
  exact ⟨hm, hmoment hm⟩

end Sys2Proof.Machine
end

section
/-! SUPPORT. Steps, the timebase, HSTB_N, and the rows of the Management Port that work on their own block (chapters 8
and 10): what each row answers, then the statements. -/

namespace Sys2Proof.Machine

/-! ## Steps -/

/-- No command faults or is refused (assumption 11). -/
theorem exec_next (c : Instr) (s : State) : ∃ t, exec c s = .next t := by
  have row (m : Command) (args : List Byte) : ∃ t, commandRow m args s = .next t := by
    rw [commandRow_eq]
    split
    · exact ⟨_, rfl⟩
    · exact ⟨_, rfl⟩
  cases c with
  | signalDetected =>
    change ∃ t, execSignalDetected s = .next t
    unfold execSignalDetected
    split
    · exact ⟨_, rfl⟩
    · exact ⟨_, rfl⟩
  | hstbNRelease => exact ⟨_, rfl⟩
  | timebaseAdvance =>
    change ∃ t, execTimebaseAdvance s = .next t
    unfold execTimebaseAdvance
    split
    · exact ⟨_, rfl⟩
    · exact ⟨_, rfl⟩
  | transactionBegin =>
    change ∃ t, execTransactionBegin s = .next t
    unfold execTransactionBegin
    dsimp only
    split
    · split
      · exact ⟨_, rfl⟩
      · exact ⟨_, rfl⟩
    · exact ⟨_, rfl⟩
  | transactionEnd =>
    change ∃ t, execTransactionEnd s = .next t
    unfold execTransactionEnd
    dsimp only
    split
    · exact ⟨_, rfl⟩
    · split
      · exact ⟨_, rfl⟩
      · exact ⟨_, rfl⟩
  | mclkEdge edge =>
    change ∃ t, execMclkEdge edge s = .next t
    unfold execMclkEdge
    cases edge with
    | rising mdi =>
      dsimp only
      split
      · exact ⟨_, rfl⟩
      · split
        · exact ⟨_, rfl⟩
        · exact ⟨_, rfl⟩
    | falling =>
      dsimp only
      split
      · split
        · exact ⟨_, rfl⟩
        · exact ⟨_, rfl⟩
      · exact ⟨_, rfl⟩
  | unknownCommand code =>
    change ∃ t, execUnknownCommand code s = .next t
    unfold execUnknownCommand
    split
    · exact row _ _
    · exact ⟨_, rfl⟩
  | ident | status | readParams | setParams | softReset | readWindow | writeWindow | enableWindow | disableWindow
  | clearWindow | flush | readSource | start | stop | readEvents | setEnables | ackEvents | takeIncident =>
    exact row _ _
  | hostCycleAcceptance | refusedWriteCompletion | memoryCycleCompletion | publishHoldExpiry | lossOfSignal | linkUp
  | alignmentLost | frameCutOff | frameArrival | transmissionCompletion | returnTimerExpiry | announceTimerExpiry
  | backoffExpiry | symbolReceived | hardReset | resetRelease =>
    exact ⟨_, exec_of_isEvent rfl s⟩

/-- Settles O1, from the two equations of a step and from `exec_next`. -/
theorem stepRunsTheFrontCommand : Obligations.StepRunsTheFrontCommand := by
  refine ⟨fun c rest s h => ?_, fun s h => ?_, exec_next⟩
  · rw [step, h]
  · rw [step, h]

/-- Settles O11: the release is the row's whole effect. -/
theorem strobeReleaseMakesTheNextCycleNew : Obligations.StrobeReleaseMakesTheNextCycleNew := fun _ => rfl

/-- Settles O38: the row's two cases. -/
theorem timebaseAdvances : Obligations.TimebaseAdvances :=
  ⟨fun _ h => if_pos h, fun s h => if_neg (by simp [h])⟩

/-- Settles O55: memory and the window table directly, the other laws as the invariant of the blocks. -/
theorem resetStateIsLawful : Obligations.ResetStateIsLawful := by
  have hwin : WindowLaw State.reset := windowLaw_reset rfl
  have hblocks : Blocks State.reset := by
    refine ⟨⟨Nat.zero_le _, Nat.zero_le _, fun c p hp => ?_, by rintro r ⟨⟩⟩, aqOk_nil, Nat.zero_le _, Nat.zero_le _,
      flightOk_nil _ rfl rfl rfl, .free rfl rfl rfl rfl (by simp [State.granted, State.reset, MemoryArbiter.reset])
        fun h => (by cases h), ?_⟩
    · fin_cases c
      all_goals cases hp
    · simp [LinkLaw, State.reset, LinkInterface.reset]
  have hsound : Sound State.reset := by
    refine ⟨hblocks, modeLaw_of_offline rfl rfl rfl rfl fun h => (by cases h), fun h => (by cases h),
      fun _ => ⟨?_, ?_⟩, fun h => by cases h⟩
    · exact Nat.zero_lt_succ _
    · exact Nat.zero_lt_succ _
  refine (lawful_iff _).2 ⟨State.reset_mem_wf, hwin, hsound, ⟨Nat.zero_le _, portLaw_ended State.reset _ _⟩,
    fun h => (by cases h), fun _ => ⟨fun _ _ => ⟨rfl, rfl⟩, fun _ => ⟨rfl, rfl⟩⟩⟩

/-! ## The transaction (R171, R173, R177) -/

theorem beginTransaction_row {s : State} (hr : s.resetN = true) (hm : s.mgmt.mselN = true)
    (hp : s.mgmt.txn.port = .deselected) :
    exec .transactionBegin s = .next (beginTransaction (s.withMgmt { s.mgmt with mselN := false })) := by
  change execTransactionBegin s = _
  unfold execTransactionBegin
  rw [if_pos hm]
  exact if_pos ⟨hr, hp⟩

theorem endTransaction_row {s : State} (hr : s.resetN = true) (hm : s.mgmt.mselN = false) :
    exec .transactionEnd s = .next (endTransaction (s.withMgmt { s.mgmt with mselN := true })) := by
  change execTransactionEnd s = _
  unfold execTransactionEnd
  rw [if_neg (by simp [hm])]
  exact if_pos hr

/-- Only a removal pending in TRAILING is taken. -/
theorem endTransaction_of_none {s : State} (h : ¬(s.mgmt.txn.port = .trailing ∧ s.mgmt.txn.removal.isSome = true)) :
    endTransaction s = s.withMgmt { s.mgmt with txn := Transaction.idle, mdo := none } := by
  unfold endTransaction
  rw [if_neg h]

theorem endTransaction_of_removal {s : State} (h : s.mgmt.txn.port = .trailing ∧ s.mgmt.txn.removal.isSome = true) :
    endTransaction s = (s.withAttn { s.attn with
      queue := s.attn.queue.tail
      overflow := if s.mgmt.txn.dropFlag = true then s.attn.overflow else false }).withMgmt
        { s.mgmt with txn := Transaction.idle, mdo := none } := by
  have hov : (if s.mgmt.txn.dropFlag = true then s.attn.overflow else false) =
      (s.attn.overflow && s.mgmt.txn.dropFlag) := by
    cases s.mgmt.txn.dropFlag
    · simp
    · simp
  unfold endTransaction
  rw [if_pos h, hov]
  rfl

/-- Settles O44: a removal is taken in TRAILING alone. -/
theorem transactionBeginsAndEnds : Obligations.TransactionBeginsAndEnds := by
  refine ⟨fun s hr hm hp => (beginTransaction_row hr hm hp).trans rfl, fun s hr hm => ⟨fun hn => ?_, fun ht hs => ?_⟩⟩
  · rw [endTransaction_row hr hm, endTransaction_of_none]
    · rfl
    · rintro ⟨ht, hs⟩
      rcases hn with hn | hn
      · exact hn ht
      · exact absurd (hn ▸ hs : (none : Option Incident).isSome = true) (by simp)
  · exact (endTransaction_row hr hm).trans (congrArg _ (endTransaction_of_removal ⟨ht, hs⟩))

/-! ## Reading commands (R181, R182, R190 to R192) -/

/-- Bit 7 beside a number below 128. -/
theorem bitAt_or_byteOf (b : Bool) {n : Nat} (h : n < 128) :
    bitAt b 7 ||| byteOf n = BitVec.ofNat 8 ((if b = true then 128 else 0) + n) := by
  have key : ∀ (b : Bool) (k : Fin 128),
      bitAt b 7 ||| byteOf k.val = BitVec.ofNat 8 ((if b = true then 128 else 0) + k.val) := by decide +kernel
  exact key b ⟨n, h⟩

theorem bitAt_or_bitAt : ∀ a b : Bool,
    bitAt a 7 ||| bitAt b 6 = BitVec.ofNat 8 ((if a = true then 128 else 0) + (if b = true then 64 else 0)) := by
  decide

theorem statusNode_eq (n : NodeControl) :
    statusNode n =
      [BitVec.ofNat 8 (64 * (match n.mode with | .offline => 0 | .joining => 1 | .active => 2 | .draining => 3) +
        16 * (match n.level with | .normal => 0 | .degraded => 1 | .isolated => 2) + n.nodeId.val), n.lif, n.rtf] ++
        bytes32 n.timebase := by
  unfold statusNode byteOf
  cases n.mode <;> cases n.level <;> rfl

theorem statusHost_eq (s : State) :
    statusHost s =
      [BitVec.ofNat 8 (64 * (match s.host.path with | .free => 0 | .holding => 1 | .requesting => 2 | .memory => 3) +
          16 * (match s.host.hold with | .noHold => 0 | .publishHold => 1 | .readHold => 2)),
        BitVec.ofNat 8 (((if s.host.hold = .publishHold then (s.host.cycle.bind CycleRecord.window).map Fin.val
          else none).map (128 + ·)).getD 0)] ++
        bytes32 (if s.host.hold = .noHold then 0 else s.host.holdStart) ++
        bytes16 (if s.host.hold = .readHold then s.host.holdMark else 0) := by
  unfold statusHost heldWindow byteOf
  dsimp only
  cases s.host.hold with
  | noHold => cases s.host.path <;> rfl
  | readHold => cases s.host.path <;> rfl
  | publishHold => cases s.host.cycle.bind CycleRecord.window <;> cases s.host.path <;> rfl

theorem statusOrigination_eq (o : Origination) :
    statusOrigination o =
      [o.nextSeq, BitVec.ofNat 8 o.flight.length, (o.flight.head?.map IflEntry.seq).getD 0,
        (o.flight.head?.map IflEntry.retry).getD 0,
        BitVec.ofNat 8 (o.flight.filter fun f => f.state = .awaitingResend).length,
        BitVec.ofNat 8 ((if o.backoff.isSome = true then 128 else 0) +
          16 * (o.announce.map fun r => if r.state = .sent then 2 else 1).getD 0),
        (o.announce.map AnnounceRecord.retry).getD 0] ++ bytes16 o.staleReturns := by
  have hann : bitAt o.backoff.isSome 7 ||| byteOf (announceCode o.announce * 16) =
      BitVec.ofNat 8 ((if o.backoff.isSome = true then 128 else 0) +
        16 * (o.announce.map fun r => if r.state = .sent then 2 else 1).getD 0) := by
    cases ha : o.announce with
    | none => exact bitAt_or_byteOf _ (by decide)
    | some r =>
      rw [Nat.mul_comm 16]
      refine bitAt_or_byteOf _ ?_
      simp only [announceCode]
      split
      · decide
      · decide
  unfold statusOrigination
  rw [hann, List.countP_eq_length_filter]
  cases o.flight <;> cases o.announce <;> rfl

theorem statusLinks_eq (s : State) :
    statusLinks s =
      [BitVec.ofNat 8 (64 * (match s.link.inbound with | .noSignal => 0 | .aligning => 1 | .up => 2) +
        s.out.fifo.length), BitVec.ofNat 8 s.out.starvation] ++ bytes16 s.link.orphans := by
  unfold statusLinks byteOf
  cases s.link.inbound <;> rfl

theorem statusApply_eq (s : State) :
    statusApply s =
      [BitVec.ofNat 8 s.aq.entries.length] ++ bytes16 ((s.aq.entries.head?.map AqEntry.acc).getD 0) ++
        [BitVec.ofNat 8 ((if s.aq.entries.head?.map AqEntry.state = some .writing then 128 else 0) +
          (if s.arb.lastGrant = .apply then 64 else 0))] ++ bytes16 s.aq.nextAcc := by
  unfold statusApply
  rw [bitAt_or_bitAt]
  cases s.aq.entries with
  | nil => simp [byteOf]
  | cons a rest => simp [byteOf]

/-- A byte that names no command is decoded as unknown (R175). -/
theorem decodeCommand_unnamed {code : Byte} (h : namedCodes.contains code = false) :
    decodeCommand code = .unknown code := by
  have hn : namedCommands.find? (fun c => c.code == code) = none := by
    rw [List.find?_eq_none]
    intro c hc hcode
    have hmem : code ∈ namedCodes := by
      rw [← eq_of_beq hcode]
      exact (by decide : ∀ c ∈ namedCommands, c.code ∈ namedCodes) c hc
    simp [hmem] at h
  rw [decodeCommand, hn]
  rfl

/-- Settles O46, layout by layout. -/
theorem readingCommandsReportASnapshot : Obligations.ReadingCommandsReportASnapshot := by
  intro s hcap
  refine ⟨fun hc => commandRow_answered hc rfl, fun hc => ?_, fun code hcode hc => ?_, fun hc => ?_⟩
  · refine commandRow_answered hc ?_
    have hq : s.attn.queue.length < 128 := by
      obtain ⟨-, -, -, -, -, -, hq⟩ := hcap
      omega
    exact congrArg (fun b => (setMclk true s, statusOk :: (bytes16 (s.attn.raisedSet.setWidth 16) ++
      bytes16 (s.attn.enableSet.setWidth 16) ++ [b]))) (bitAt_or_byteOf s.attn.overflow hq)
  · change (if decodeCommand code = .unknown code then _ else _) = _
    rw [if_pos (decodeCommand_unnamed hcode)]
    exact commandRow_answered hc rfl
  · refine commandRow_answered hc ?_
    change (setMclk true s, statusOk :: statusData (setMclk true s)) = (setMclk true s, statusOk :: _)
    rw [statusData, statusNode_eq, statusHost_eq, statusOrigination_eq, statusLinks_eq, statusApply_eq]
    simp only [List.append_assoc]
    rfl

/-! ## ENABLE_WINDOW (R28, R29) -/

section Enable
variable {n : Byte} {s : State} {i : WinIdx}

theorem enableWindow_answered {u : State} {response : List Byte} (hc : Completing s [0x12, n])
    (he : enableWindowEffect n (setMclk true s) = (setMclk true u, response)) :
    exec (.enableWindow n) s = .next (u.answered .enableWindow [n] response) := commandRow_answered hc he

theorem enableWindowEffect_of_lt (hi : n.toNat = i.val) :
    enableWindowEffect n s =
      if s.windows[i].enabled then (s, [statusOk])
      else if s.windows[i].written = false then (s, [statusBadState])
      else
        match conflictOf s.windows i with
        | some j => (s, [statusConflict, byteOf j.val])
        | none => (s.setWindow i { s.windows[i] with enabled := true }, [statusOk]) :=
  withIndex_of_lt n s _ i hi

theorem Window.written_iff (w : Window) : w.written = true ↔ 4 ≤ w.sizeCode.toNat ∧ w.sizeCode.toNat ≤ 20 := by
  simp [Window.written]

/-- The conflict checks of R28 on an enabled window. -/
theorem conflictsWith_iff (v w : Window) :
    v.conflictsWith w = true ↔ v.channel = w.channel ∨ (v.kind ≠ w.kind ∧ ¬v.apart w) := by
  simp [Window.conflictsWith, Window.overlaps_iff]

/-- The lowest index that satisfies a check on the windows. -/
theorem find_allWindows_eq_some {p : WinIdx → Bool} :
    allWindows.find? p = some i ↔ p i = true ∧ ∀ j : WinIdx, j < i → p j = false := by
  have hget (k : Nat) (hk : k < allWindows.length) : allWindows[k] = ⟨k, hk⟩ :=
    (by decide : ∀ k : Fin 16, allWindows[k.val] = k) ⟨k, hk⟩
  rw [List.find?_eq_some_iff_getElem]
  refine and_congr_right fun _ => ⟨?_, fun h => ⟨i.val, i.isLt, hget _ _, fun j hj => ?_⟩⟩
  · rintro ⟨k, hk, rfl, hlow⟩ j hj
    rw [hget] at hj
    simpa [hget] using hlow j.val hj
  · rw [hget, h _ hj]
    rfl

theorem find_allWindows_eq_none {p : WinIdx → Bool} : allWindows.find? p = none ↔ ∀ j : WinIdx, p j = false := by
  rw [List.find?_eq_none]
  exact ⟨fun h j => by simpa using h j (mem_allWindows j), fun h j _ => by simp [h j]⟩

/-- A window in the way of enabling window i (R28). -/
def Conflicting (s : State) (i j : WinIdx) : Prop :=
  s.windows[j].enabled = true ∧ (s.windows[j].channel = s.windows[i].channel ∨
    (s.windows[j].kind ≠ s.windows[i].kind ∧ ¬s.windows[j].apart s.windows[i]))

theorem conflicting_iff (j : WinIdx) :
    (s.windows[j].enabled && s.windows[j].conflictsWith s.windows[i]) = true ↔ Conflicting s i j := by
  rw [Bool.and_eq_true, conflictsWith_iff, Conflicting]

theorem conflictOf_eq_some {j : WinIdx} (hj : Conflicting s i j) (hlow : ∀ k : WinIdx, k < j → ¬Conflicting s i k) :
    conflictOf s.windows i = some j :=
  find_allWindows_eq_some.2 ⟨(conflicting_iff j).2 hj, fun k hk => Bool.eq_false_iff.2 fun h =>
    hlow k hk ((conflicting_iff k).1 h)⟩

theorem conflictOf_eq_none (h : ∀ j : WinIdx, ¬Conflicting s i j) : conflictOf s.windows i = none :=
  find_allWindows_eq_none.2 fun j => Bool.eq_false_iff.2 fun hj => h j ((conflicting_iff j).1 hj)

end Enable

/-- Settles O50, check by check in the order of R28. -/
theorem enableWindowChecksThenEnables : Obligations.EnableWindowChecksThenEnables := by
  intro n s hc
  refine ⟨fun hn => enableWindow_answered hc (withIndex_of_ge n _ _ hn), fun i hi => ?_⟩
  have effect := enableWindowEffect_of_lt (s := setMclk true s) hi
  refine ⟨fun he => ?_, fun he hw => ?_, fun j he hw hj hlow => ?_, fun he hw hno => ?_⟩
  · refine enableWindow_answered hc ?_
    rw [effect, show (setMclk true s).windows[i].enabled = true from he, if_pos rfl]
    rfl
  · refine enableWindow_answered hc ?_
    have hnw : (setMclk true s).windows[i].written = false :=
      Bool.eq_false_iff.2 fun h => hw ((Window.written_iff _).1 h)
    rw [effect, show (setMclk true s).windows[i].enabled = false from he, hnw]
    rfl
  · refine enableWindow_answered hc ?_
    have hwr : (setMclk true s).windows[i].written = true := (Window.written_iff _).2 hw
    rw [effect, show (setMclk true s).windows[i].enabled = false from he, hwr,
      show conflictOf (setMclk true s).windows i = some j from conflictOf_eq_some (s := s) hj hlow]
    rfl
  · refine enableWindow_answered hc ?_
    have hwr : (setMclk true s).windows[i].written = true := (Window.written_iff _).2 hw
    rw [effect, show (setMclk true s).windows[i].enabled = false from he, hwr,
      show conflictOf (setMclk true s).windows i = none from conflictOf_eq_none (s := s) hno]
    rfl

end Sys2Proof.Machine
end

section
/-! SUPPORT. The edges of MCLK (R174 to R177): what each does in each state of the port, and that the edge which
completes a command's last byte is the command's own row. -/

namespace Sys2Proof.Machine

/-! ## Commands and their bytes -/

/-- A management command, its code and its argument bytes (R175, R189). -/
theorem spelled_cases {c : Instr} (hs : spelled c ≠ []) (hw : c.wellFormed = true) :
    ∃ (m : Command) (args : List Byte), spelled c = m.code :: args ∧ (∀ s, exec c s = commandRow m args s) ∧
      decodeCommand m.code = m ∧ args.length = m.argCount := by
  have named (m : Command) (args : List Byte) (h1 : spelled c = m.code :: args)
      (h2 : ∀ s, exec c s = commandRow m args s) (h3 : decodeCommand m.code = m) (h4 : args.length = m.argCount) :
      ∃ (m : Command) (args : List Byte), spelled c = m.code :: args ∧ (∀ s, exec c s = commandRow m args s) ∧
        decodeCommand m.code = m ∧ args.length = m.argCount := ⟨m, args, h1, h2, h3, h4⟩
  cases c with
  | ident => exact named .ident [] rfl (fun _ => rfl) (by decide) rfl
  | status => exact named .status [] rfl (fun _ => rfl) (by decide) rfl
  | readParams => exact named .readParams [] rfl (fun _ => rfl) (by decide) rfl
  | setParams rto phl retryLimit nakBackoff => exact named .setParams _ rfl (fun _ => rfl) (by decide) rfl
  | softReset => exact named .softReset [] rfl (fun _ => rfl) (by decide) rfl
  | readWindow n => exact named .readWindow [n] rfl (fun _ => rfl) (by decide) rfl
  | writeWindow n kind base sizeCode channel cls combine policy =>
    exact named .writeWindow _ rfl (fun _ => rfl) (by decide) rfl
  | enableWindow n => exact named .enableWindow [n] rfl (fun _ => rfl) (by decide) rfl
  | disableWindow n => exact named .disableWindow [n] rfl (fun _ => rfl) (by decide) rfl
  | clearWindow n => exact named .clearWindow [n] rfl (fun _ => rfl) (by decide) rfl
  | flush n => exact named .flush [n] rfl (fun _ => rfl) (by decide) rfl
  | readSource n => exact named .readSource [n] rfl (fun _ => rfl) (by decide) rfl
  | start => exact named .start [] rfl (fun _ => rfl) (by decide) rfl
  | stop => exact named .stop [] rfl (fun _ => rfl) (by decide) rfl
  | readEvents => exact named .readEvents [] rfl (fun _ => rfl) (by decide) rfl
  | setEnables set => exact named .setEnables _ rfl (fun _ => rfl) (by decide) rfl
  | ackEvents set => exact named .ackEvents _ rfl (fun _ => rfl) (by decide) rfl
  | takeIncident => exact named .takeIncident [] rfl (fun _ => rfl) (by decide) rfl
  | unknownCommand code =>
    have hn : namedCodes.contains code = false := by simpa [Instr.wellFormed] using hw
    have hd := decodeCommand_unnamed hn
    exact named (.unknown code) [] rfl (fun s => if_pos hd) hd rfl
  | _ => exact absurd rfl hs

/-- A command that takes arguments is named by its code. -/
theorem decodeCommand_code {m : Command} (h : 0 < m.argCount) : decodeCommand m.code = m := by
  cases m with
  | unknown code => exact absurd h (Nat.lt_irrefl 0)
  | _ => decide

/-- The bits of a byte, the last one apart. -/
theorem byte_of_shift (v : Byte) : (v >>> 1) <<< 1 ||| bitAt (v.getLsbD 0) 0 = v := by
  revert v
  decide +kernel

/-! ## Rising edges -/

section Edges
variable {s : State} {b : Bool}

theorem rising_of_low (hr : s.resetN = true) (hm : s.mgmt.mclk = false) :
    exec (.mclkEdge (.rising b)) s = .next (clockRises b (setMclk true s)) := by
  change execMclkEdge (.rising b) s = _
  unfold execMclkEdge
  dsimp only
  rw [if_neg (by simp [hm]), if_pos hr]

theorem falling_of_high (hr : s.resetN = true) (hm : s.mgmt.mclk = true) :
    exec (.mclkEdge .falling) s = .next (clockFalls (setMclk false s)) := by
  change execMclkEdge .falling s = _
  unfold execMclkEdge
  dsimp only
  rw [if_pos hm, if_pos hr]

theorem clockRises_deselected (h : s.mgmt.txn.port = .deselected) : clockRises b s = s := by
  unfold clockRises
  dsimp only
  rw [h]

theorem clockRises_receiving (h : s.mgmt.txn.port = .receiving) : clockRises b s = receiveBit b s := by
  unfold clockRises
  dsimp only
  rw [h]

theorem clockRises_responding (h : s.mgmt.txn.port = .responding) :
    clockRises b s = setTxn (sampleResponse s.mgmt.txn) s := by
  unfold clockRises
  dsimp only
  rw [h]

theorem clockRises_trailing (h : s.mgmt.txn.port = .trailing) :
    clockRises b s = setTxn { s.mgmt.txn with bitCount := (s.mgmt.txn.bitCount + 1) % 8 } s := by
  unfold clockRises
  dsimp only
  rw [h]

theorem clockFalls_idle (h : s.mgmt.txn.port = .receiving ∨ s.mgmt.txn.port = .trailing) :
    clockFalls s = s.withMgmt { s.mgmt with mdo := some false } := by
  unfold clockFalls
  rcases h with h | h
  · rw [h]
  · rw [h]

theorem clockFalls_deselected (h : s.mgmt.txn.port = .deselected) : clockFalls s = s := by
  unfold clockFalls
  rw [h]

theorem clockFalls_responding (h : s.mgmt.txn.port = .responding) :
    clockFalls s = s.withMgmt { s.mgmt with mdo := some (responseBit s.mgmt.txn) } := by
  unfold clockFalls
  rw [h]

theorem receiveBit_of_lt (h : s.mgmt.txn.bitCount < 7) :
    receiveBit b s = setTxn { s.mgmt.txn with
      bitCount := s.mgmt.txn.bitCount + 1, shift := (s.mgmt.txn.shift <<< 1) ||| bitAt b 0 } s :=
  if_neg (by omega)

theorem receiveBit_of_seven (h : s.mgmt.txn.bitCount = 7) :
    receiveBit b s = receiveByte ((s.mgmt.txn.shift <<< 1) ||| bitAt b 0) s :=
  if_pos (by omega)

theorem receiveByte_command {v : Byte} (h : s.mgmt.txn.command = none) :
    receiveByte v s = if (decodeCommand v).argCount = 0 then executeCommand (decodeCommand v) [] s
      else setTxn { s.mgmt.txn with bitCount := 0, shift := 0, command := some (decodeCommand v) } s := by
  unfold receiveByte
  dsimp only
  rw [h]

theorem receiveByte_argument {v : Byte} {m : Command} (h : s.mgmt.txn.command = some m) :
    receiveByte v s = if m.argCount ≤ (s.mgmt.txn.args ++ [v]).length then executeCommand m (s.mgmt.txn.args ++ [v]) s
      else setTxn { s.mgmt.txn with bitCount := 0, shift := 0, args := s.mgmt.txn.args ++ [v] } s := by
  unfold receiveByte
  dsimp only
  rw [h]

/-! ## The edge that completes a command -/

/-- The last bit of a command's last byte executes the command. -/
theorem lastBit_executes {m : Command} {args bytes : List Byte} {last : Byte} (hb : m.code :: args = bytes ++ [last])
    (hdec : decodeCommand m.code = m) (hlen : args.length = m.argCount) (hc : Completing s (bytes ++ [last]))
    (hport : PortLaw s) (hrec : s.mgmt.txn.received = bytes) (hbits : s.mgmt.txn.bitCount = 7) :
    clockRises (last.getLsbD 0) (setMclk true s) = executeCommand m args (setMclk true s) := by
  obtain ⟨-, hcan⟩ := hc
  simp only [Transaction.canComplete, Bool.and_eq_true, decide_eq_true_eq, hrec,
    List.getElem?_concat_length, hbits, beq_iff_eq] at hcan
  obtain ⟨⟨hp, -⟩, hshift⟩ := hcan
  have hbyte : (s.mgmt.txn.shift <<< 1) ||| bitAt (last.getLsbD 0) 0 = last := by
    rw [← hshift]
    exact byte_of_shift last
  have hbits' : (setMclk true s).mgmt.txn.bitCount = 7 := hbits
  rw [clockRises_receiving (s := setMclk true s) hp, receiveBit_of_seven hbits',
    show (setMclk true s).mgmt.txn.shift = s.mgmt.txn.shift from rfl, hbyte]
  obtain ⟨-, -, hrecv, -⟩ := hport
  obtain ⟨-, -, -, -, -, hargs⟩ := hrecv hp
  cases hcom : s.mgmt.txn.command with
  | none =>
    have hnil : bytes = [] := by
      rw [← hrec, Transaction.received, hcom]
    rw [hnil] at hb
    obtain ⟨hcode, hargs0⟩ := List.cons.inj hb
    rw [receiveByte_command (s := setMclk true s) hcom, ← hcode, hdec, if_pos]
    · rw [hargs0]
    · rw [← hlen, hargs0]
      rfl
  | some k =>
    have hbytes : bytes = k.code :: s.mgmt.txn.args := by
      rw [← hrec, Transaction.received, hcom]
    rw [hbytes] at hb
    obtain ⟨hcode, hargs'⟩ := List.cons.inj hb
    have hk : k = m := by
      have hpos := hargs k hcom
      rw [← decodeCommand_code (Nat.lt_of_le_of_lt (Nat.zero_le _) hpos), ← hcode, hdec]
    rw [receiveByte_argument (s := setMclk true s) hcom, hk, ← hlen, hargs', if_pos]
    · rfl
    · exact Nat.le_refl _

theorem bitAt_zero_eq (b : Bool) : bitAt b 0 = if b = true then 1 else 0 := by
  cases b with
  | true => rfl
  | false => rfl

theorem succ_mod_eight {n : Nat} (h : n < 8) : (n + 1) % 8 = if n = 7 then 0 else n + 1 := by
  split
  · omega
  · omega

theorem sampleResponse_eq {t : Transaction} {bytes : List Byte} (h : t.response = some bytes)
    (hpos : t.position < 8 * bytes.length) (hbit : t.bitCount < 8) :
    sampleResponse t = { t with
      bitCount := if t.bitCount = 7 then 0 else t.bitCount + 1, position := t.position + 1
      port := if t.position + 1 = 8 * bytes.length then .trailing else .responding } := by
  have hlast : 8 * bytes.length ≤ t.position + 1 ↔ t.position + 1 = 8 * bytes.length := by omega
  unfold sampleResponse
  simp only [h, Option.getD_some, succ_mod_eight hbit, hlast]

theorem responseBit_eq {t : Transaction} {bytes : List Byte} (h : t.response = some bytes) (k : Fin bytes.length)
    (j : Fin 8) (hpos : t.position = 8 * k.val + j.val) : responseBit t = bytes[k].getLsbD (7 - j.val) := by
  have hdiv : t.position / 8 = k.val := by omega
  have hmod : t.position % 8 = j.val := by omega
  simp [responseBit, h, hdiv, hmod]

end Edges

/-- Settles O45: edge by edge, and the last bit by `lastBit_executes`. -/
theorem mclkShiftsOneBit : Obligations.MclkShiftsOneBit := by
  refine ⟨fun c bytes last s hsp hw hc hport hrec hbits hm => ?_, fun b s hr hport => ?_⟩
  · obtain ⟨m, args, hb, hrow, hdec, hlen⟩ := spelled_cases (by simp [hsp]) hw
    rw [rising_of_low hc.1 hm, hrow, commandRow_eq, if_pos (hb ▸ hc),
      lastBit_executes (hb.symm.trans hsp) hdec hlen (hsp ▸ hc) hport hrec hbits]
  · obtain ⟨-, -, -, hresp, htrail, hbit, -⟩ := hport
    have h8 : (setMclk true s).mgmt.txn.bitCount < 8 := hbit
    refine ⟨fun hm => ⟨fun hp => ?_, fun hp hlt => ?_, fun hp h7 hc hpos => ?_, fun c hp h7 hc hlt => ?_,
      fun bytes hp hb => ?_, fun hp => ?_⟩, fun hm => ⟨fun hp => ?_, fun hp => ?_, fun bytes k j hp hb hpos => ?_⟩⟩
    · rw [rising_of_low hr hm, clockRises_deselected (s := setMclk true s) hp]
      rfl
    · rw [rising_of_low hr hm, clockRises_receiving (s := setMclk true s) hp,
        receiveBit_of_lt (s := setMclk true s) hlt, bitAt_zero_eq]
      rfl
    · rw [rising_of_low hr hm, clockRises_receiving (s := setMclk true s) hp,
        receiveBit_of_seven (s := setMclk true s) h7, receiveByte_command (s := setMclk true s) hc, bitAt_zero_eq,
        if_neg]
      · rfl
      · exact Nat.ne_of_gt hpos
    · rw [rising_of_low hr hm, clockRises_receiving (s := setMclk true s) hp,
        receiveBit_of_seven (s := setMclk true s) h7, receiveByte_argument (s := setMclk true s) hc, bitAt_zero_eq,
        if_neg]
      · rfl
      · rw [List.length_append, List.length_singleton]
        exact Nat.not_le.2 hlt
    · obtain ⟨-, -, hpos⟩ := hresp hp
      rw [hb] at hpos
      rw [rising_of_low hr hm, clockRises_responding (s := setMclk true s) hp,
        sampleResponse_eq (t := (setMclk true s).mgmt.txn) hb hpos hbit]
      rfl
    · rw [rising_of_low hr hm, clockRises_trailing (s := setMclk true s) hp, succ_mod_eight h8]
      rfl
    · rw [falling_of_high hr hm, clockFalls_deselected (s := setMclk false s) hp]
      rfl
    · rw [falling_of_high hr hm, clockFalls_idle (s := setMclk false s) hp]
      rfl
    · rw [falling_of_high hr hm, clockFalls_responding (s := setMclk false s) hp,
        responseBit_eq (t := (setMclk false s).mgmt.txn) hb k j hpos]
      rfl

end Sys2Proof.Machine
end

section
/-! SUPPORT. Frames and symbols as they are sent and read (R66 to R69, R187, R188), and the statement about them. -/

namespace Sys2Proof.Machine

/-! ## Bytes of fields -/

theorem append_extract_high {m n : Nat} (a : BitVec m) (b : BitVec n) : (a ++ b).extractLsb' n m = a := by
  ext i hi
  simp [BitVec.getElem_extractLsb', BitVec.getLsbD_append, BitVec.getLsbD_eq_getElem hi]

theorem append_extract_low {m n : Nat} (a : BitVec m) (b : BitVec n) : (a ++ b).extractLsb' 0 n = b := by
  ext i hi
  simp [BitVec.getElem_extractLsb', BitVec.getLsbD_append, hi]

/-- The bytes of a 16-bit value determine it. -/
theorem bytes16_inj {v w : BitVec 16} : bytes16 v = bytes16 w ↔ v = w := by
  refine ⟨fun h => ?_, congrArg bytes16⟩
  rw [← append_bytes16 v, ← append_bytes16 w, (List.cons.inj h).1, (List.cons.inj (List.cons.inj h).2).1]

theorem bytes16_append (a b : Byte) : bytes16 (a ++ b) = [a, b] := by
  rw [bytes16, append_extract_high, append_extract_low]

theorem sourceOf_append (k : BitVec 4) (n : NodeId) : sourceOf (k ++ idBits n) = n := by
  rw [sourceOf, append_extract_low, idBits, BitVec.toNat_ofNat, Nat.mod_eq_of_lt (by omega)]
  exact Fin.ofNat_val_eq_self n

theorem getLsbD_headerByte2 (f : Frame) (i : Nat) :
    (headerByte2 f).getLsbD i =
      if i < 4 then f.hops.getLsbD i else if i - 4 < 1 then (0#1).getLsbD (i - 4)
      else if i - 4 - 1 < 1 then (BitVec.ofBool f.nak).getLsbD (i - 4 - 1)
      else f.attempt.getLsbD (i - 4 - 1 - 1) := by
  show BitVec.getLsbD (w := 2 + 1 + 1 + 4) (f.attempt ++ BitVec.ofBool f.nak ++ 0#1 ++ f.hops) i = _
  simp only [BitVec.getLsbD_append]

theorem headerByte2_fields (f : Frame) :
    (headerByte2 f).extractLsb' 6 2 = f.attempt ∧ (headerByte2 f)[5] = f.nak ∧
      (headerByte2 f).extractLsb' 0 4 = f.hops := by
  refine ⟨?_, ?_, append_extract_low _ _⟩
  · ext i hi
    rw [BitVec.getElem_extractLsb', getLsbD_headerByte2, if_neg (by omega), if_neg (by omega), if_neg (by omega),
      show 6 + i - 4 - 1 - 1 = i by omega, BitVec.getLsbD_eq_getElem]
  · rw [← BitVec.getLsbD_eq_getElem, getLsbD_headerByte2]
    simp

theorem kind_append (k : BitVec 4) (n : NodeId) : (k ++ idBits n : Byte).extractLsb' 4 4 = k :=
  append_extract_high k (idBits n)

theorem setWidth_bytes24 (span : SpanOffset) :
    (((span.setWidth 24).extractLsb' 16 8 ++ (span.setWidth 24).extractLsb' 8 8 ++
      (span.setWidth 24).extractLsb' 0 8 : BitVec 24).setWidth 18) = span := by
  rw [append_bytes24, BitVec.setWidth_setWidth_of_le _ (by decide), BitVec.setWidth_eq]

/-! ## Words in lane order -/

theorem append_wordBytes (w : Word) :
    w.extractLsb' 24 8 ++ w.extractLsb' 16 8 ++ w.extractLsb' 8 8 ++ w.extractLsb' 0 8 = w := by
  rw [BitVec.extractLsb'_append_extractLsb'_eq_extractLsb' (by rfl),
    BitVec.extractLsb'_append_extractLsb'_eq_extractLsb' (by rfl),
    BitVec.extractLsb'_append_extractLsb'_eq_extractLsb' (by rfl), BitVec.extractLsb'_eq_self]

theorem wordsFromBytes_flatMap (ws : List Word) : wordsFromBytes (ws.flatMap wordBytes) = ws := by
  induction ws with
  | nil => rfl
  | cons w ws ih =>
    have hw : wordsFromBytes ((w :: ws).flatMap wordBytes) =
        (w.extractLsb' 24 8 ++ w.extractLsb' 16 8 ++ w.extractLsb' 8 8 ++ w.extractLsb' 0 8) ::
          wordsFromBytes (ws.flatMap wordBytes) := rfl
    rw [hw, ih, append_wordBytes]

theorem length_flatMap_wordBytes (ws : List Word) : (ws.flatMap wordBytes).length = 4 * ws.length := by
  induction ws with
  | nil => rfl
  | cons w ws ih => rw [List.flatMap_cons, List.length_append, ih, List.length_cons]; simp [wordBytes]; omega

theorem length_wordsFromBytes (n : Nat) : ∀ bs : List Byte, bs.length = 4 * n → (wordsFromBytes bs).length = n := by
  induction n with
  | zero => intro bs h; rw [List.eq_nil_of_length_eq_zero h]; rfl
  | succ n ih =>
    intro bs h
    match bs, h with
    | a :: b :: c :: d :: rest, h =>
      have hr : rest.length = 4 * n := by simp at h; omega
      exact congrArg Nat.succ (ih rest hr)

/-! ## Frames -/

/-- A frame that can be sent: the mask of an UPDATE has a bit and its words are those of its present positions. -/
def Frame.sendable (f : Frame) : Prop :=
  ∀ (channel : Byte) (span : SpanOffset) (mask : SpanMask) (words : List Word),
    f.body = .update channel span mask words → mask ≠ 0 ∧ words.length = presentCount mask

/-- A body with two bytes behind it is a frame when they are its check, high byte first (R68, R69). -/
theorem parseFrame_append (body : List Byte) (high low : Byte) :
    parseFrame (body ++ [high, low]) =
      if body.length < 3 then none else if high ++ low = check body then frameOfChecked body else none := by
  have hb : [high, low] = bytes16 (check body) ↔ high ++ low = check body := by
    rw [← bytes16_append, bytes16_inj]
  have hl : body.length + 2 < 5 ↔ body.length < 3 := by omega
  simp [parseFrame, hb, hl]

theorem parseFrame_bytes (f : Frame) :
    parseFrame f.bytes = if f.checkedBytes.length < 3 then none else frameOfChecked f.checkedBytes := by
  have h := parseFrame_append f.checkedBytes ((check f.checkedBytes).extractLsb' 8 8)
    ((check f.checkedBytes).extractLsb' 0 8)
  rwa [append_bytes16, if_pos rfl] at h

theorem three_le_checkedBytes (f : Frame) : 3 ≤ f.checkedBytes.length := by
  unfold Frame.checkedBytes
  split <;> simp

/-- The bytes of a sendable frame before its check are read as the frame (R66 to R69). -/
theorem frameOfChecked_checkedBytes {f : Frame} (hf : f.sendable) : frameOfChecked f.checkedBytes = some f := by
  obtain ⟨ha, hn, hh⟩ := headerByte2_fields f
  obtain ⟨source, seq, attempt, nak, hops, body⟩ := f
  cases body with
  | announce =>
    simp [frameOfChecked, Frame.checkedBytes, kind_append, sourceOf_append, ha, hn, hh]
  | update channel span mask words =>
    obtain ⟨hm, hw⟩ := hf channel span mask words rfl
    have hlen : (words.flatMap wordBytes).length = 4 * presentCount mask := by rw [length_flatMap_wordBytes, hw]
    simp [frameOfChecked, Frame.checkedBytes, kind_append, sourceOf_append, ha, hn, hh, bytes24, bytes16,
      append_bytes16, setWidth_bytes24, wordsFromBytes_flatMap, show ¬mask = 0#16 from hm, hlen]

/-- What is read of the bytes before a check is a sendable frame of as many bytes (R69). -/
theorem sendable_of_frameOfChecked {body : List Byte} {f : Frame} (h : frameOfChecked body = some f) :
    f.sendable ∧ f.checkedBytes.length = body.length := by
  unfold frameOfChecked at h
  split at h
  next =>
    dsimp only at h
    split at h
    · obtain ⟨rfl, ⟨⟩⟩ := Option.ite_none_right_eq_some.1 h
      exact ⟨fun _ _ _ _ hb => (nomatch hb), rfl⟩
    · obtain ⟨-, h⟩ := Option.ite_none_right_eq_some.1 h
      split at h
      · obtain ⟨⟨hm, hl⟩, ⟨⟩⟩ := Option.ite_none_right_eq_some.1 h
        have hw := length_wordsFromBytes _ _ hl
        refine ⟨fun _ _ _ _ hb => (by cases hb; exact ⟨hm, hw⟩), ?_⟩
        simp [Frame.checkedBytes, bytes24, bytes16, -List.length_flatMap, length_flatMap_wordBytes, hw, hl]
      · cases h
  next => cases h

theorem length_bytes (f : Frame) : f.bytes.length = f.checkedBytes.length + 2 := by
  simp [Frame.bytes, bytes16]

/-- What is read is a sendable frame of as many bytes. -/
theorem sendable_of_parseFrame {bytes : List Byte} {f : Frame} (h : parseFrame bytes = some f) :
    f.sendable ∧ f.bytes.length = bytes.length := by
  unfold parseFrame at h
  obtain ⟨hl, h⟩ := Option.ite_none_left_eq_some.1 h
  obtain ⟨-, h⟩ := Option.ite_none_right_eq_some.1 h
  obtain ⟨hs, hlen⟩ := sendable_of_frameOfChecked h
  refine ⟨hs, ?_⟩
  rw [length_bytes, hlen, List.length_take]
  omega

/-! ## The check and the line code -/

/-- One bit into the check register, as the statement about the check writes it (R68). -/
theorem crcBit_eq (r : BitVec 16) (b : Bool) :
    crcBit r b = (r <<< 1) ^^^ (if r.getLsbD 15 = b then 0 else 0x1021) := by
  unfold crcBit
  by_cases h : r.getLsbD 15 = b
  · rw [if_neg (by simp only [h, bne_self_eq_false, Bool.false_eq_true, not_false_iff]), if_pos h]
    exact (BitVec.xor_zero).symm
  · rw [if_pos (bne_iff_ne.2 h), if_neg h]
    rfl

/-- The check takes every bit of the bytes, the most significant of a byte first (R68). -/
theorem foldl_crcByte (bytes : List Byte) (r : BitVec 16) :
    bytes.foldl crcByte r =
      (bytes.flatMap fun v => (List.range 8).map fun k => v.getLsbD (7 - k)).foldl crcBit r := by
  rw [List.foldl_flatMap]
  rfl

theorem classifyGroup_codeGroup {sym : Symbol} {g : BitVec 10} (h : codeGroup sym = some g) :
    classifyGroup g = sym := by
  cases sym with
  | data v =>
    cases h
    have high : (0b10#2 ++ v : BitVec 10).extractLsb' 8 2 = 0b10#2 := append_extract_high _ _
    have low : (0b10#2 ++ v : BitVec 10).extractLsb' 0 8 = v := append_extract_low _ _
    rw [classifyGroup, low]
    exact if_pos high
  | idle | startFrame | endFrame => cases h; rfl
  | invalid => cases h

theorem append_extract (g : BitVec 10) : g.extractLsb' 8 2 ++ g.extractLsb' 0 8 = g := by
  rw [BitVec.extractLsb'_append_extractLsb'_eq_extractLsb' (by rfl), BitVec.extractLsb'_eq_self]

theorem codeGroup_classifyGroup {g : BitVec 10} (h : classifyGroup g ≠ .invalid) :
    codeGroup (classifyGroup g) = some g := by
  have hg := append_extract g
  unfold classifyGroup at h ⊢
  dsimp only at h ⊢
  split_ifs at h ⊢ with hd hc hi hs he
  · rw [hd] at hg; exact congrArg some hg
  · rw [hc, hi] at hg; exact congrArg some hg
  · rw [hc, hs] at hg; exact congrArg some hg
  · rw [hc, he] at hg; exact congrArg some hg
  all_goals exact absurd rfl h

/-- Settles O60: reading undoes sending, the check's bits, and the line code both ways. -/
theorem framesAreReadAsSent : Obligations.FramesAreReadAsSent := by
  refine ⟨fun f hf => ?_, fun bytes f h => sendable_of_parseFrame h, fun body high low hne => ?_, fun bytes => ?_,
    fun sym g h => classifyGroup_codeGroup h, fun sym g h hv => ?_⟩
  · rw [parseFrame_bytes, if_neg (Nat.not_lt.2 (three_le_checkedBytes f)), frameOfChecked_checkedBytes hf]
  · rw [parseFrame_append, if_neg (Ne.symm hne), ite_self]
  · simp only [check, foldl_crcByte, ← crcBit_eq]
    rfl
  · subst h
    exact codeGroup_classifyGroup hv

end Sys2Proof.Machine
end

section
/-! SUPPORT. The Host Path's commands from acceptance to completion (sections 1.2 to 1.6, 3.2, 3.3), and the statements
about them. -/

namespace Sys2Proof.Machine

/-! ## The end of an event whose output side is settled -/

section Choices
variable {s t : State} {r : CycleRecord}

/-- The Output Arbiter has nothing to choose. -/
def OutputSettled (s : State) : Prop :=
  s.out.sending = none → s.link.outbound = .running → s.out.fifo = [] ∧ originationOffer s = none

theorem OutputSettled.chooseOutput {e : Event} (h : OutputSettled e.toState) : e.chooseOutput = e := by
  by_cases hb : e.out.sending.isSome = true ∨ e.link.outbound = .quiet
  · exact e.chooseOutput_of_busy hb
  · have hs : e.out.sending = none := by simpa using (not_or.1 hb).1
    have hl : e.link.outbound = .running := by
      cases hl : e.link.outbound with
      | running => rfl
      | quiet => exact absurd (Or.inr hl) hb
    obtain ⟨hf, ho⟩ := h hs hl
    simp [Event.chooseOutput, hf, ho]

theorem OutputSettled.choices (h : OutputSettled s) : choices s = arbitrate s := by
  rw [Machine.choices, OutputSettled.chooseOutput (e := Event.begin s) h]
  rfl

theorem OutputSettled.of_busy (h : s.out.sending.isSome = true) : OutputSettled s := fun hs => by simp [hs] at h

/-- What the Origination Unit's offer depends on (R82). -/
theorem originationOffer_congr {s t : State} (ho : t.orig = s.orig) (hm : t.node.mode = s.node.mode)
    (hp : t.pq.offer = s.pq.offer) : originationOffer t = originationOffer s := by
  have ha : announceOffer t = announceOffer s := by rw [announceOffer, announceOffer, ho, hm]
  rw [originationOffer, originationOffer, ha, ho, hm, hp]

/-- What the Output Arbiter looks at (R73, R82). -/
theorem OutputSettled.congr (h : OutputSettled s) (ho : t.out = s.out) (hl : t.link.outbound = s.link.outbound)
    (hf : originationOffer t = originationOffer s) : OutputSettled t := by
  unfold OutputSettled
  rw [ho, hl, hf]
  exact h

/-- A commitment changes nothing that the Output Arbiter looks at. -/
theorem Event.originationOffer_commit (e : Event) : originationOffer e.commit = originationOffer e.toState :=
  e.commit_induct (motive := fun s => originationOffer s = originationOffer e.toState) rfl fun s o hs => by
    obtain ⟨a, m, ha, -⟩ := appendIncident_eq s o
    rw [ha, ← hs]; rfl

theorem Event.outputSettled_commit {e : Event} (h : OutputSettled e.toState) : OutputSettled e.commit :=
  h.congr e.commit_out (congrArg _ e.commit_link) e.originationOffer_commit

theorem Event.finish_of_output {e : Event} (hm : e.moments = []) (h : OutputSettled e.toState) :
    e.finish = arbitrate e.commit := by
  rw [e.finish_of_alone hm, (Event.outputSettled_commit h).choices]

/-! ### The next state of a request, and of a port that is left to the Apply Queue -/

/-- The port with a host request and nothing in the Apply Queue, or busy (R13, R133). -/
theorem arbitrate_requested (hp : s.host.path = .requesting) (hc : s.host.cycle = some r) (hh : s.host.hold = .noHold)
    (he : s.host.herr = false) (hq : s.arb.cycle = none → s.aq.entries = []) : arbitrate s = s.afterRequest r := by
  unfold State.afterRequest
  cases ha : s.arb.cycle with
  | some m =>
    rw [arbitrate_of_busy _ (by simp [ha])]
    simp only [State.withHost, ← hp, ← hc, ← hh, ← he]
  | none =>
    simp only [arbitrate, ha, arbiterChoice, hostRequest, hp, hc, applyRequest, hq ha, State.withHost, State.withArb,
      grantCycle, if_true, Option.map_some, List.head?_nil, Option.map_none, ← hh, ← he]

/-- A request of an event that leaves the Output Arbiter nothing to choose is granted by a FREE port (R13, R133). -/
theorem Event.finish_requested {e : Event} (hm : e.moments = []) (ho : OutputSettled e.toState)
    (hp : e.host.path = .requesting) (hc : e.host.cycle = some r) (hh : e.host.hold = .noHold)
    (he : e.host.herr = false) (hq : e.arb.cycle = none → e.aq.entries = []) :
    e.finish = e.commit.afterRequest r := by
  rw [Event.finish_of_output hm ho, arbitrate_requested] <;> simpa

theorem afterRequest_withWindows (s : State) (r : CycleRecord) (ws : Vector Window 16) :
    (s.withWindows ws).afterRequest r = (s.afterRequest r).withWindows ws := by
  unfold State.afterRequest
  cases ha : s.arb.cycle <;> simp only [State.withWindows_arb, ha] <;> rfl

theorem afterRequest_withPq (s : State) (r : CycleRecord) (q : PublishQueue) :
    (s.withPq q).afterRequest r = (s.afterRequest r).withPq q := by
  unfold State.afterRequest
  cases ha : s.arb.cycle <;> simp only [State.withPq_arb, ha] <;> rfl

theorem afterRequest_enterRequesting (s : State) (r : CycleRecord) :
    (enterRequesting r s).afterRequest r = s.afterRequest r := by
  unfold State.afterRequest enterRequesting
  cases ha : s.arb.cycle <;> simp only [State.withHost_arb, ha] <;> rfl

@[simp] theorem afterRequest_windows (s : State) (r : CycleRecord) : (s.afterRequest r).windows = s.windows := by
  unfold State.afterRequest
  split <;> rfl

theorem appendIncident_withHost (s : State) (o : Occurrence) (h : HostPath) :
    appendIncident (s.withHost h) o = (appendIncident s o).withHost h := by
  unfold appendIncident
  by_cases hl : s.attn.queue.length < Config.incidentCapacity <;> simp only [State.withHost_attn, hl] <;> rfl

theorem appendIncident_withArb (s : State) (o : Occurrence) (a : MemoryArbiter) :
    appendIncident (s.withArb a) o = (appendIncident s o).withArb a := by
  unfold appendIncident
  by_cases hl : s.attn.queue.length < Config.incidentCapacity <;> simp only [State.withArb_attn, hl] <;> rfl

theorem appendIncident_withWindows (s : State) (o : Occurrence) (ws : Vector Window 16) :
    appendIncident (s.withWindows ws) o = (appendIncident s o).withWindows ws := by
  unfold appendIncident
  by_cases hl : s.attn.queue.length < Config.incidentCapacity <;> simp only [State.withWindows_attn, hl] <;> rfl

/-- An incident is appended beside a grant. -/
theorem afterRequest_appendIncident (s : State) (r : CycleRecord) (o : Occurrence) :
    (appendIncident s o).afterRequest r = appendIncident (s.afterRequest r) o := by
  unfold State.afterRequest
  cases ha : s.arb.cycle <;>
    simp only [appendIncident_arb, appendIncident_host, ha, appendIncident_withArb, appendIncident_withHost]

end Choices

/-! ## Causes in order (R163) -/

/-- A cause of the highest rank so far comes last. -/
theorem insertByRank_of_le {o : Occurrence} {l : List Occurrence} (h : ∀ p ∈ l, p.rank ≤ o.rank) :
    insertByRank o l = l ++ [o] := by
  induction l with
  | nil => rfl
  | cons p ps ih =>
    rw [insertByRank, if_neg (Nat.not_lt.2 (h p (by simp))), ih fun q hq => h q (by simp [hq])]
    rfl

theorem inRankOrder_concat {o : Occurrence} {l : List Occurrence} (h : ∀ p ∈ l, p.rank ≤ o.rank) :
    inRankOrder (l ++ [o]) = inRankOrder l ++ [o] := by
  rw [inRankOrder, List.foldl_concat]
  exact insertByRank_of_le fun p hp => h p ((mem_inRankOrder p l).1 hp)

/-- Causes are committed beside a change of the windows. -/
theorem Event.commit_withWindows (e : Event) (ws : Vector Window 16) :
    (e.on fun s => s.withWindows ws).commit = e.commit.withWindows ws := by
  have fold (l : List Occurrence) (s : State) :
      l.foldl appendIncident (s.withWindows ws) = (l.foldl appendIncident s).withWindows ws := by
    induction l generalizing s with
    | nil => rfl
    | cons o os ih => rw [List.foldl_cons, appendIncident_withWindows, ih, List.foldl_cons]
  unfold Event.commit
  cases hr : e.resetN <;> simp [hr, fold]

/-- The cause raised last, of the highest rank, is appended last. -/
theorem Event.commit_raise {e : Event} {o : Occurrence} (hr : e.resetN = true) (h : ∀ p ∈ e.raised, p.rank ≤ o.rank) :
    (e.raise o).commit = appendIncident e.commit o := by
  have hr' : (e.raise o).resetN = true := hr
  unfold Event.commit
  rw [if_pos hr, if_pos hr', show (e.raise o).raised = e.raised ++ [o] from rfl, inRankOrder_concat h, List.foldl_concat]
  rfl

/-- A DIVERGED request after causes of lower rank (R21, R163). -/
theorem Event.commit_requestDiverged {e : Event} {i : WinIdx} (hr : e.resetN = true)
    (h : ∀ p ∈ e.raised, p.rank ≤ (Occurrence.divergedMarked i).rank) :
    (e.requestDiverged i).commit = e.commit.divergedAt i := by
  have hw : e.commit.windows = e.windows := e.commit_windows
  unfold Event.requestDiverged State.divergedAt
  dsimp only
  rw [hw]
  split
  · exact (Event.commit_raise (e := e.setWindow i _) hr h).trans
      (congrArg (appendIncident · _) (e.commit_withWindows _))
  · rfl

/-- A STALE request after causes of lower rank (R21, R163). -/
theorem Event.commit_requestStale {e : Event} {i : WinIdx} (hr : e.resetN = true)
    (h : ∀ p ∈ e.raised, p.rank ≤ (Occurrence.staleMarked i).rank) :
    (e.requestStale i).commit = e.commit.staleAt i := by
  have hw : e.commit.windows = e.windows := e.commit_windows
  unfold Event.requestStale State.staleAt
  dsimp only
  rw [hw]
  split
  · exact (Event.commit_raise (e := e.setWindow i _) hr h).trans
      (congrArg (appendIncident · _) (e.commit_withWindows _))
  · rfl

theorem afterRequest_divergedAt (s : State) (r : CycleRecord) (i : WinIdx) :
    (s.divergedAt i).afterRequest r = (s.afterRequest r).divergedAt i := by
  unfold State.divergedAt
  rw [afterRequest_windows]
  split
  · rw [afterRequest_appendIncident, afterRequest_withWindows]
  · rfl

theorem afterRequest_staleAt (s : State) (r : CycleRecord) (i : WinIdx) :
    (s.staleAt i).afterRequest r = (s.afterRequest r).staleAt i := by
  unfold State.staleAt
  rw [afterRequest_windows]
  split
  · rw [afterRequest_appendIncident, afterRequest_withWindows]
  · rfl

section Marked
variable {e : Event} {i : WinIdx} {r : CycleRecord}

theorem OutputSettled.requestDiverged (h : OutputSettled e.toState) : OutputSettled (e.requestDiverged i).toState :=
  h.congr (by simp) (by simp) (originationOffer_congr (by simp) (by simp) (by simp))

theorem OutputSettled.requestStale (h : OutputSettled e.toState) : OutputSettled (e.requestStale i).toState :=
  h.congr (by simp) (by simp) (originationOffer_congr (by simp) (by simp) (by simp))

/-- A request whose write marks its window (R10, R13). -/
theorem Event.finish_requested_diverged (hr : e.resetN = true)
    (hlow : ∀ p ∈ e.raised, p.rank ≤ (Occurrence.divergedMarked i).rank) (hm : e.moments = [])
    (ho : OutputSettled e.toState) (hp : e.host.path = .requesting) (hc : e.host.cycle = some r)
    (hh : e.host.hold = .noHold) (he : e.host.herr = false) (hq : e.arb.cycle = none → e.aq.entries = []) :
    (e.requestDiverged i).finish = (e.commit.afterRequest r).divergedAt i := by
  rw [Event.finish_requested (r := r), Event.commit_requestDiverged hr hlow, afterRequest_divergedAt]
  · simpa using hm
  · exact ho.requestDiverged
  all_goals simpa

/-- A request whose write marks its window (R11, R13). -/
theorem Event.finish_requested_stale (hr : e.resetN = true)
    (hlow : ∀ p ∈ e.raised, p.rank ≤ (Occurrence.staleMarked i).rank) (hm : e.moments = [])
    (ho : OutputSettled e.toState) (hp : e.host.path = .requesting) (hc : e.host.cycle = some r)
    (hh : e.host.hold = .noHold) (he : e.host.herr = false) (hq : e.arb.cycle = none → e.aq.entries = []) :
    (e.requestStale i).finish = (e.commit.afterRequest r).staleAt i := by
  rw [Event.finish_requested (r := r), Event.commit_requestStale hr hlow, afterRequest_staleAt]
  · simpa using hm
  · exact ho.requestStale
  all_goals simpa

end Marked

/-! ## Acceptance and classification (R2 to R5) -/

section Acceptance
variable {s : State} {c : HostCycle} {i : WinIdx}

/-- What the acceptance leaves before it enters the path of its class (R2; assumption 6). -/
def arrived (c : HostCycle) (s : State) : State :=
  s.withHost { s.host with presented := some c, strobeHighSince := false }

/-- A new cycle that R2 lets in is accepted at once. -/
theorem exec_acceptance (ha : Accepting s) (addr : ByteAddr) (dir : Direction) (lanes : Lanes) (data : Word) :
    exec (.hostCycleAcceptance addr dir lanes data) s =
      .next (((Event.begin s).on (presentCycle ⟨addr, dir, lanes, data⟩)).accept ⟨addr, dir, lanes, data⟩).finish := by
  obtain ⟨hr, hp, hd, hn⟩ := ha
  have hc : canAccept (presentCycle ⟨addr, dir, lanes, data⟩ s) = true := by
    simp [canAccept, presentCycle, hr, hp, hd, hn]
  exact congrArg (fun e : Event => Host.Outcome.next e.finish) (if_pos hc)

theorem matches_iff {w : WordAddr} :
    (s.windows[i].enabled && s.windows[i].contains w) = true ↔ InEnabled s i w := by
  unfold Window.contains Window.size
  rw [Bool.and_eq_true, Bool.and_eq_true, decide_eq_true_iff, decide_eq_true_iff]

theorem matchingWindow_eq_some {w : WordAddr} : matchingWindow s.windows w = some i ↔ MatchedBy s w i := by
  rw [matchingWindow, find_allWindows_eq_some, matches_iff]
  simp only [← Bool.not_eq_true, matches_iff]

theorem matchingWindow_eq_none {w : WordAddr} :
    matchingWindow s.windows w = none ↔ ∀ i : WinIdx, ¬InEnabled s i w := by
  rw [matchingWindow, find_allWindows_eq_none]
  simp only [← Bool.not_eq_true, matches_iff]

theorem classify_read (hd : c.dir = .read) : classify s c = (.plain, none) := by simp [classify, hd]

theorem classify_plain (h : c.lanes = 0 ∨ ∀ i : WinIdx, ¬InEnabled s i c.word) : classify s c = (.plain, none) := by
  unfold classify
  by_cases hl : c.lanes = 0
  · rw [if_pos hl, ite_self]
  · rw [matchingWindow_eq_none.2 (h.resolve_left hl), ite_self, ite_self]

section Matched
variable (hd : c.dir = .write) (hl : c.lanes ≠ 0) (hm : MatchedBy s c.word i)
include hd hl hm

theorem classify_owned (hk : s.windows[i].kind = .owned) :
    classify s c = if s.node.mode.captures then (.publish, some i) else (.unpublished, some i) := by
  simp only [classify, hd, hl, matchingWindow_eq_some.2 hm, hk, if_false, reduceCtorEq]

theorem classify_accept (hk : s.windows[i].kind = .mirror) (hp : s.windows[i].policy = .accept) :
    classify s c = (.localWrite, some i) := by
  simp only [classify, hd, hl, matchingWindow_eq_some.2 hm, hk, hp, if_false, reduceCtorEq]

theorem classify_refuse (hk : s.windows[i].kind = .mirror) (hp : s.windows[i].policy = .refuse) :
    classify s c = (.refused, some i) := by
  simp only [classify, hd, hl, matchingWindow_eq_some.2 hm, hk, hp, if_false, reduceCtorEq]

end Matched

/-! ### The path of each class (table of section 1.4) -/

theorem accept_plain (h : classify s c = (.plain, none)) :
    ((Event.begin s).on (presentCycle c)).accept c = (Event.begin (arrived c s)).on (acceptPlain c) := by
  have h' : classify (markAccepted (presentCycle c s)) c = (.plain, none) := h
  unfold Event.accept
  dsimp only [Event.on_toState, Event.begin_toState]
  rw [h']
  rfl

theorem accept_publish (h : classify s c = (.publish, some i)) :
    ((Event.begin s).on (presentCycle c)).accept c = (Event.begin (arrived c s)).acceptPublish c i := by
  have h' : classify (markAccepted (presentCycle c s)) c = (.publish, some i) := h
  unfold Event.accept
  dsimp only [Event.on_toState, Event.begin_toState]
  rw [h']
  rfl

theorem accept_unpublished (h : classify s c = (.unpublished, some i)) :
    ((Event.begin s).on (presentCycle c)).accept c =
      ((Event.begin (arrived c s)).on (enterRequesting (c.record .unpublished (some i)))).requestDiverged i := by
  have h' : classify (markAccepted (presentCycle c s)) c = (.unpublished, some i) := h
  unfold Event.accept
  dsimp only [Event.on_toState, Event.begin_toState]
  rw [h']
  rfl

theorem accept_local (h : classify s c = (.localWrite, some i)) :
    ((Event.begin s).on (presentCycle c)).accept c =
      ((Event.begin (arrived c s)).on (enterRequesting (c.record .localWrite (some i)))).requestStale i := by
  have h' : classify (markAccepted (presentCycle c s)) c = (.localWrite, some i) := h
  unfold Event.accept
  dsimp only [Event.on_toState, Event.begin_toState]
  rw [h']
  rfl

theorem accept_refused (h : classify s c = (.refused, some i)) :
    ((Event.begin s).on (presentCycle c)).accept c = (Event.begin (arrived c s)).acceptRefused c i := by
  have h' : classify (markAccepted (presentCycle c s)) c = (.refused, some i) := h
  unfold Event.accept
  dsimp only [Event.on_toState, Event.begin_toState]
  rw [h']
  rfl

/-! ### Requests posted at acceptance (R7, R10 to R13) -/

/-- A request posted at the acceptance is made, and nothing else of the event remains to be done. -/
theorem finish_posted (hs : Settled s) (r : CycleRecord) :
    ((Event.begin (arrived c s)).on (enterRequesting r)).finish = (arrived c s).afterRequest r := by
  have ho : OutputSettled s := hs.2.1
  rw [Event.finish_requested (r := r) hs.1 (ho.congr rfl rfl rfl) rfl rfl rfl rfl fun h => (hs.2.2 h).2,
    Event.commit_of_nil _ rfl]
  exact afterRequest_enterRequesting _ _

theorem finish_posted_diverged (hs : Settled s) (hr : s.resetN = true) (r : CycleRecord) :
    (((Event.begin (arrived c s)).on (enterRequesting r)).requestDiverged i).finish =
      ((arrived c s).afterRequest r).divergedAt i := by
  have ho : OutputSettled s := hs.2.1
  rw [Event.finish_requested_diverged (r := r) hr (fun _ h => by cases h) hs.1 (ho.congr rfl rfl rfl) rfl rfl rfl rfl
    fun h => (hs.2.2 h).2, Event.commit_of_nil _ rfl]
  exact congrArg (State.divergedAt · i) (afterRequest_enterRequesting _ _)

theorem finish_posted_stale (hs : Settled s) (hr : s.resetN = true) (r : CycleRecord) :
    (((Event.begin (arrived c s)).on (enterRequesting r)).requestStale i).finish =
      ((arrived c s).afterRequest r).staleAt i := by
  have ho : OutputSettled s := hs.2.1
  rw [Event.finish_requested_stale (r := r) hr (fun _ h => by cases h) hs.1 (ho.congr rfl rfl rfl) rfl rfl rfl rfl
    fun h => (hs.2.2 h).2, Event.commit_of_nil _ rfl]
  exact congrArg (State.staleAt · i) (afterRequest_enterRequesting _ _)

end Acceptance

/-- Settles O2: the write is PLAIN and posts its request. -/
theorem plainWriteRequestsMemory : Obligations.PlainWriteRequestsMemory := by
  intro addr lanes data s hs ha hl
  rw [exec_acceptance ha, accept_plain (classify_plain hl)]
  exact congrArg Host.Outcome.next (finish_posted hs _)

/-- The youngest covering entry is the last of those that cover (R8, R127). -/
theorem youngestCovering_eq_some {l : List AqEntry} {w : WordAddr} (i : Fin l.length) (hi : l[i].covers w = true)
    (hl : ∀ j : Fin l.length, i < j → l[j].covers w = false) : youngestCovering l w = some l[i] := by
  have hsplit : l = l.take i.val ++ l[i] :: l.drop (i.val + 1) := by
    rw [Fin.getElem_fin, ← List.drop_eq_getElem_cons i.isLt, List.take_append_drop]
  have htail : (l.drop (i.val + 1)).filter (fun a => a.covers w) = [] := by
    refine List.filter_eq_nil_iff.2 fun a ha => ?_
    obtain ⟨k, hk, rfl⟩ := List.mem_iff_getElem.1 ha
    rw [List.length_drop] at hk
    have := hl ⟨i.val + 1 + k, by omega⟩ (Fin.lt_def.2 (by simp; omega))
    rw [List.getElem_drop]
    simpa using this
  have hf : l.filter (fun a => a.covers w) = (l.take i.val).filter (fun a => a.covers w) ++ [l[i]] := by
    conv_lhs => rw [hsplit]
    rw [List.filter_append, List.filter_cons_of_pos (p := fun a : AqEntry => a.covers w) hi, htail]
  rw [youngestCovering, hf, List.getLast?_concat]

/-- A settled state with its requests as they are, or without the host's, is settled. -/
theorem Settled.unrequested {s t : State} (hs : Settled s) (hm : t.moments = s.moments) (ho : t.out = s.out)
    (hl : t.link.outbound = s.link.outbound) (hf : originationOffer t = originationOffer s) (ha : t.arb = s.arb)
    (hq : t.aq = s.aq) (hp : t.host.path ≠ .requesting) : Settled t := by
  have hout : OutputSettled t := OutputSettled.congr hs.2.1 ho hl hf
  refine ⟨hm.trans hs.1, hout, fun h => ?_⟩
  rw [ha] at h
  rw [hq]
  exact ⟨if_neg hp, (hs.2.2 h).2⟩

theorem acceptPlain_held {s : State} {c : HostCycle} {a : AqEntry} (hd : c.dir = .read)
    (hy : youngestCovering s.aq.entries c.word = some a) :
    acceptPlain c s = s.withHost
      { s.host with path := .holding, cycle := some (c.record .plain none), hold := .readHold, holdMark := a.acc
                    holdStart := s.node.timebase, herr := false } := by
  unfold acceptPlain
  dsimp only
  rw [if_pos hd, hy]

theorem acceptPlain_free {s : State} {c : HostCycle} (h : c.dir = .read → youngestCovering s.aq.entries c.word = none) :
    acceptPlain c s = enterRequesting (c.record .plain none) s := by
  unfold acceptPlain
  dsimp only
  split
  next hd => rw [h hd]
  next => rfl

/-- Settles O3: the read-hold check. -/
theorem readIsHeldForPendingUpdates : Obligations.ReadIsHeldForPendingUpdates := by
  intro addr lanes data s hs ha
  refine ⟨fun hn => ?_, fun i hi hl => ?_⟩
  all_goals rw [exec_acceptance ha, accept_plain (classify_read rfl)]
  · have hy : youngestCovering s.aq.entries (addr.extractLsb' 2 22) = none := by
      rw [youngestCovering, List.getLast?_eq_none_iff, List.filter_eq_nil_iff]
      exact fun a ha => by simp [hn a ha]
    rw [show (Event.begin (arrived ⟨addr, .read, lanes, data⟩ s)).on (acceptPlain ⟨addr, .read, lanes, data⟩) = _ from
      congrArg Event.begin (acceptPlain_free fun _ => hy)]
    exact congrArg Host.Outcome.next (finish_posted hs _)
  · rw [show (Event.begin (arrived ⟨addr, .read, lanes, data⟩ s)).on (acceptPlain ⟨addr, .read, lanes, data⟩) = _ from
      congrArg Event.begin (acceptPlain_held rfl (youngestCovering_eq_some i hi hl)),
      Event.finish_of_settled_nil _ (hs.unrequested rfl rfl rfl rfl rfl rfl (fun h => by cases h)) rfl]
    rfl

/-- Settles O4: the write marks its window and posts its request. -/
theorem unpublishedAndLocalWritesMarkTheirWindow : Obligations.UnpublishedAndLocalWritesMarkTheirWindow := by
  intro addr lanes data i s hs ha hl hm
  refine ⟨fun hk hmode => ?_, fun hk hp => ?_⟩
  · have hc : s.node.mode.captures = false := by rcases hmode with h | h <;> rw [h] <;> rfl
    have hcl : classify s ⟨addr, .write, lanes, data⟩ = (.unpublished, some i) := by
      rw [classify_owned rfl hl hm hk, hc]
      rfl
    rw [exec_acceptance ha, accept_unpublished hcl, finish_posted_diverged hs ha.1]
    rfl
  · rw [exec_acceptance ha, accept_local (classify_accept rfl hl hm hk hp), finish_posted_stale hs ha.1]
    rfl

/-- Settles O5: the refused write leaves nothing to choose. -/
theorem refusedWriteCompletesAtAcceptance : Obligations.RefusedWriteCompletesAtAcceptance := by
  intro addr lanes data i s hs ha hl hm hk hp
  have hset : Settled ((Event.begin (arrived ⟨addr, .write, lanes, data⟩ s)).acceptRefused
      ⟨addr, .write, lanes, data⟩ i).toState :=
    hs.unrequested rfl rfl rfl rfl rfl rfl (fun h => by cases h)
  rw [exec_acceptance ha, accept_refused (classify_refuse rfl hl hm hk hp), Event.finish_of_settled _ hset,
    Event.commit_of_single _ _ ha.1 rfl]
  rfl

/-! ## Completions (R14) -/

/-- With no new cycle to accept, nothing is accepted (R2). -/
theorem Event.acceptPresented_of_none {e : Event}
    (h : e.host.presented = none ∨ e.host.strobeHighSince = false ∨ e.resetN = false) : e.acceptPresented = e := by
  unfold Event.acceptPresented
  split
  next c hc =>
    refine if_neg fun ha => ?_
    simp only [canAccept, Bool.and_eq_true, decide_eq_true_eq] at ha
    obtain ⟨⟨⟨hr, -⟩, -⟩, hn⟩ := ha
    rcases h with h | h | h
    · rw [h] at hc; cases hc
    · rw [h] at hn; cases hn
    · rw [h] at hr; cases hr
  next => rfl

/-- A cycle the host goes on presenting is as if presented now (R2). -/
theorem presentCycle_of_presented {s : State} {c : HostCycle} (h : s.host.presented = some c) :
    presentCycle c s = s := by
  unfold presentCycle
  rw [← h]
  rfl

/-- Settles O6: the signalling, and the acceptance that may follow in the same event. -/
theorem refusedWriteIsSignalledWithHerr : Obligations.RefusedWriteIsSignalledWithHerr := by
  intro s hs hr hp hd
  have hrow : exec .refusedWriteCompletion s = .next (((Event.begin s).on signalRefused).acceptPresented.finish) :=
    if_pos ⟨hr, hd⟩
  refine ⟨fun hn => ⟨?_, ?_, rfl⟩, fun hn c hc => ?_⟩
  · have hset : Settled ((Event.begin s).on signalRefused).toState :=
      hs.unrequested rfl rfl rfl rfl rfl rfl (fun h => by simp [signalRefused, hp] at h)
    rw [hrow, Event.acceptPresented_of_none (e := (Event.begin s).on signalRefused)
      (hn.elim .inl fun h => .inr (.inl h)), Event.finish_of_settled_nil _ hset rfl]
    rfl
  · simp [State.hrdy, hr, hp]
  · rw [hrow]
    have hpres : presentCycle c (signalRefused s) = signalRefused s := presentCycle_of_presented hc
    have hon : (Event.begin s).on signalRefused =
        (Event.begin (signalRefused s)).on (presentCycle ⟨c.addr, c.dir, c.lanes, c.data⟩) :=
      congrArg Event.begin hpres.symm
    rw [hon]
    rfl

end Sys2Proof.Machine
end

section
/-! SUPPORT. The capture of a PUBLISH write, its departure on an idle link, its hold and the hold's expiry (sections 1.4,
1.5, 3.1 to 3.4), and the statements about them. -/

namespace Sys2Proof.Machine

/-! ## Capture (R39 to R41) -/

section Capture
variable {e : Event} {r : CaptureRequest} {t : PqEntry}

theorem CaptureRequest.combinesWith_iff :
    r.combinesWith t = true ↔
      r.combine = true ∧ t.window = r.window ∧ t.channel = r.channel ∧ t.span = r.span := by
  simp [CaptureRequest.combinesWith, and_assoc]

theorem PublishQueue.hasRoom_iff {q : PublishQueue} {c : PrioClass} :
    q.hasRoom c = true ↔ q.total < 32 ∧ (c = 3 ∨ q.low < 28) := by
  simp [PublishQueue.hasRoom]

theorem Event.capture_of_combines (ht : (e.pq.classList r.cls).getLast? = some t) (hc : r.combinesWith t = true) :
    e.capture r = some (e.combineTail r t) := by
  simp only [Event.capture, ht, hc, if_true]

theorem Event.capture_of_alone (hn : ∀ t ∈ (e.pq.classList r.cls).getLast?, ¬r.combinesWith t = true) :
    e.capture r = if e.pq.hasRoom r.cls then some (e.createEntry r) else none := by
  cases ht : (e.pq.classList r.cls).getLast? with
  | none => simp only [Event.capture, ht]
  | some t => simp only [Event.capture, ht, if_neg (hn t ht)]

/-- The window record whose update count a capture advances (R42). -/
def counted (i : WinIdx) (s : State) : Vector Window 16 :=
  s.windows.set i { s.windows[i] with updates := s.windows[i].updates + 1 }

theorem begin_combineTail (s : State) : (Event.begin s).combineTail r t =
    Event.begin ((s.withPq (s.pq.setClassList r.cls ((s.pq.classList r.cls).dropLast ++ [r.mergeInto t]))).withWindows
      (counted r.window s)) := rfl

theorem begin_createEntry (s : State) : (Event.begin s).createEntry r =
    Event.begin ((s.withPq (s.pq.setClassList r.cls (s.pq.classList r.cls ++ [r.newEntry]))).withWindows
      (counted r.window s)) := rfl

end Capture

/-! ## The acceptance of a PUBLISH write (R9) -/

section Publish
variable {s t : State} {c : HostCycle} {i : WinIdx}

theorem acceptPublish_of_captured {e' : Event}
    (h : (Event.begin s).capture (captureRequest s c i) = some e') :
    (Event.begin s).acceptPublish c i = e'.on (enterRequesting (c.record .publish (some i))) := by
  simp only [Event.acceptPublish, Event.begin_toState, h]

theorem classify_publish (hd : c.dir = .write) (hl : c.lanes ≠ 0) (hm : MatchedBy s c.word i)
    (hk : s.windows[i].kind = .owned) (hmode : s.node.mode = .joining ∨ s.node.mode = .active) :
    classify s c = (.publish, some i) := by
  have hc : s.node.mode.captures = true := by rcases hmode with h | h <;> rw [h] <;> rfl
  rw [classify_owned hd hl hm hk, hc]
  rfl

theorem announceOffer_of_none (h : originationOffer s = none) : announceOffer s = none := by
  unfold originationOffer at h
  split at h
  · cases h
  next ha => exact ha

/-- A new entry of the Publish Queue is not offered while a transmission is in progress, in JOINING, with a full In-Flight
List or with a resend due (R73, R82). -/
theorem OutputSettled.of_not_fresh (h : OutputSettled s) (ho : t.out = s.out) (hl : t.link = s.link)
    (hg : t.orig = s.orig) (hm : t.node.mode = s.node.mode)
    (hb : s.out.sending.isSome = true ∨ s.node.mode = .joining ∨ 16 ≤ s.orig.flight.length ∨
      s.orig.resend.isSome = true) : OutputSettled t := by
  intro hs hr
  rw [ho] at hs
  rw [hl] at hr
  obtain ⟨hf, hn⟩ := h hs hr
  have ha : announceOffer t = none := by
    rw [← announceOffer_of_none hn, announceOffer, announceOffer, hg, hm]
  refine ⟨by rw [ho, hf], ?_⟩
  have hn' := hn
  unfold originationOffer at hn' ⊢
  rw [announceOffer_of_none hn] at hn'
  rw [ha, hg, hm]
  by_cases hres : s.orig.resend.isSome = true
  · rw [if_pos hres] at hn' ⊢
    exact hn'
  · rw [if_neg hres]
    refine if_neg ?_
    rintro ⟨hsends, hlen⟩
    rcases hb with hb | hb | hb | hb
    · simp [hs] at hb
    · simp [hb, Mode.sends] at hsends
    · exact absurd hlen (Nat.not_lt.2 hb)
    · exact hres hb

/-- The end of the acceptance of a captured write that does not depart. -/
theorem finish_captured (hs : Settled s) {q : PublishQueue} {ws : Vector Window 16} (r : CycleRecord)
    (hb : s.out.sending.isSome = true ∨ s.node.mode = .joining ∨ 16 ≤ s.orig.flight.length ∨
      s.orig.resend.isSome = true) :
    ((Event.begin (((arrived c s).withPq q).withWindows ws)).on (enterRequesting r)).finish =
      (((arrived c s).afterRequest r).withPq q).withWindows ws := by
  have ho : OutputSettled s := hs.2.1
  rw [Event.finish_requested (r := r) hs.1 (ho.of_not_fresh rfl rfl rfl rfl hb) rfl rfl rfl rfl fun h => (hs.2.2 h).2,
    Event.commit_of_nil _ rfl]
  rw [Event.on_toState, Event.begin_toState, afterRequest_enterRequesting, afterRequest_withWindows, afterRequest_withPq]

end Publish

/-- Settles O7: combining, or a new entry, then the request; nothing is offered. -/
theorem publishWriteIsCaptured : Obligations.PublishWriteIsCaptured := by
  intro addr lanes data i s hs ha hl hm hk hmode hb
  dsimp only
  have hcl : classify s ⟨addr, .write, lanes, data⟩ = (.publish, some i) := classify_publish rfl hl hm hk hmode
  refine ⟨fun t ht hc => ?_, fun hn htot hlow => ?_⟩
  · have hcap := Event.capture_of_combines
      (e := Event.begin (arrived ⟨addr, .write, lanes, data⟩ s))
      (r := captureRequest (arrived ⟨addr, .write, lanes, data⟩ s) ⟨addr, .write, lanes, data⟩ i) ht
      (CaptureRequest.combinesWith_iff.2 hc)
    rw [exec_acceptance ha, accept_publish hcl, acceptPublish_of_captured hcap, begin_combineTail,
      finish_captured hs _ hb, State.setWindow, afterRequest_windows]
    rfl
  · have hcap := (Event.capture_of_alone
      (e := Event.begin (arrived ⟨addr, .write, lanes, data⟩ s))
      (r := captureRequest (arrived ⟨addr, .write, lanes, data⟩ s) ⟨addr, .write, lanes, data⟩ i)
      fun t ht hc => hn t ht (CaptureRequest.combinesWith_iff.1 hc)).trans
      (if_pos (PublishQueue.hasRoom_iff.2 ⟨htot, hlow⟩))
    rw [exec_acceptance ha, accept_publish hcl, acceptPublish_of_captured hcap, begin_createEntry,
      finish_captured hs _ hb, State.setWindow, afterRequest_windows]
    rfl

/-! ## Departure in the same event (R51, R73, R81) -/

section Depart
variable {q : PublishQueue} {p : PqEntry}

theorem PublishQueue.offer_eq_none (h : q.offer = none) : q.total = 0 := by
  unfold PublishQueue.offer at h
  split at h
  case h_5 h3 h2 h1 h0 => simp [PublishQueue.total, PublishQueue.low, h0, h1, h2, h3]
  all_goals cases h

/-- The only entry of the Publish Queue is offered, and its departure leaves the queue as it was (R50, R51). -/
theorem PublishQueue.offer_single (h : q.total = 0) (c : PrioClass) (p : PqEntry) :
    (q.setClassList c [p]).offer = some p ∧ (q.setClassList c [p]).dropOffer = q := by
  obtain ⟨c0, c1, c2, c3, held⟩ := q
  obtain ⟨h0, h1, h2, h3⟩ : c0 = [] ∧ c1 = [] ∧ c2 = [] ∧ c3 = [] := by
    have := PublishQueue.total_eq_zero_iff.1 h
    exact ⟨this 0, this 1, this 2, this 3⟩
  subst h0 h1 h2 h3
  match c with
  | 0 => exact ⟨rfl, rfl⟩
  | 1 => exact ⟨rfl, rfl⟩
  | 2 => exact ⟨rfl, rfl⟩
  | 3 => exact ⟨rfl, rfl⟩

end Depart

/-- With no write in PUBLISH_HOLD, a removal makes room for none (R45). -/
theorem Event.roomCheck_of_not_held {e : Event} (h : e.host.hold ≠ .publishHold) : e.roomCheck = e := by
  unfold Event.roomCheck
  split
  · exact if_neg fun hc => h hc.1
  · rfl

/-- The departure of an offered entry while no write is held: it is on the line at the tail of the In-Flight List. -/
theorem Event.sendOffer_fresh {s : State} {p : PqEntry} (h : s.host.hold ≠ .publishHold) :
    (Event.begin s).sendOffer (.fresh p) = Event.begin
      (((s.withPq s.pq.dropOffer).withOrig
        { s.orig with flight := s.orig.flight ++ [p.depart s.orig.nextSeq s.node.timebase]
                      nextSeq := s.orig.nextSeq + 1 }).withOut
        { s.out with sending := some ((p.depart s.orig.nextSeq s.node.timebase).frame s.node.nodeId), starvation := 0 }) := by
  have hroom := Event.roomCheck_of_not_held (e := Event.begin ((s.withPq s.pq.dropOffer).withOrig
    { s.orig with flight := s.orig.flight ++ [p.depart s.orig.nextSeq s.node.timebase]
                  nextSeq := s.orig.nextSeq + 1 })) h
  exact congrArg (fun e : Event => e.on (startSending _ 0)) hroom

theorem Event.chooseOutput_of_offer {e : Event} {o : Offer} (hs : e.out.sending = none) (hl : e.link.outbound = .running)
    (hf : e.out.fifo = []) (ho : originationOffer e.toState = some o) : e.chooseOutput = e.sendOffer o := by
  simp [Event.chooseOutput, hs, hl, hf, ho]

theorem afterRequest_withOrig (s : State) (r : CycleRecord) (o : Origination) :
    (s.withOrig o).afterRequest r = (s.afterRequest r).withOrig o := by
  unfold State.afterRequest
  cases ha : s.arb.cycle <;> simp only [State.withOrig_arb, ha] <;> rfl

theorem afterRequest_withOut (s : State) (r : CycleRecord) (o : OutputArbiter) :
    (s.withOut o).afterRequest r = (s.afterRequest r).withOut o := by
  unfold State.afterRequest
  cases ha : s.arb.cycle <;> simp only [State.withOut_arb, ha] <;> rfl

/-- The offer of an ACTIVE node with room and no resend due is the Publish Queue's (R82). -/
theorem originationOffer_active {s : State} (hm : s.node.mode = .active) (hl : s.orig.flight.length < 16)
    (hr : s.orig.resend = none) : originationOffer s = s.pq.offer.map Offer.fresh := by
  have ha : announceOffer s = none := by
    unfold announceOffer
    cases s.orig.announce <;> simp [hm]
  simp [originationOffer, ha, hr, hm, Mode.sends, hl]

/-- An idle link takes the Publish Queue's offer, and a FREE port the request of the same event (R51, R73, R133). -/
theorem choices_departed {s : State} {r : CycleRecord} {p : PqEntry} (hidle : s.out.sending = none)
    (hrun : s.link.outbound = .running) (hfifo : s.out.fifo = []) (ho : originationOffer s = some (.fresh p))
    (hp : s.host.path = .requesting) (hc : s.host.cycle = some r) (hh : s.host.hold = .noHold)
    (he : s.host.herr = false) (hq : s.arb.cycle = none → s.aq.entries = []) :
    choices s = (((s.afterRequest r).withPq s.pq.dropOffer).withOrig
        { s.orig with flight := s.orig.flight ++ [p.depart s.orig.nextSeq s.node.timebase]
                      nextSeq := s.orig.nextSeq + 1 }).withOut
        { fifo := [], sending := some ((p.depart s.orig.nextSeq s.node.timebase).frame s.node.nodeId)
          starvation := 0 } := by
  have hn : s.host.hold ≠ .publishHold := fun h => by rw [hh] at h; cases h
  rw [← hfifo, choices, Event.chooseOutput_of_offer (e := Event.begin s) hidle hrun hfifo ho, Event.sendOffer_fresh hn,
    Event.begin_toState, ← afterRequest_withPq, ← afterRequest_withOrig, ← afterRequest_withOut]
  exact arbitrate_requested hp hc hh he hq

/-- The end of the acceptance of a captured write that an idle link takes at once. -/
theorem finish_departed {s : State} {c : HostCycle} (hs : Settled s) (hmode : s.node.mode = .active)
    (hidle : s.out.sending = none) (hrun : s.link.outbound = .running) (hlen : s.orig.flight.length < 16)
    (hres : s.orig.resend = none) (htot : s.pq.total = 0) (ws : Vector Window 16) (cls : PrioClass) (p : PqEntry)
    (r : CycleRecord) :
    ((Event.begin (((arrived c s).withPq (s.pq.setClassList cls [p])).withWindows ws)).on (enterRequesting r)).finish =
      ((((arrived c s).afterRequest r).withWindows ws).withOrig
        { s.orig with flight := s.orig.flight ++ [p.depart s.orig.nextSeq s.node.timebase]
                      nextSeq := s.orig.nextSeq + 1 }).withOut
        { fifo := [], sending := some ((p.depart s.orig.nextSeq s.node.timebase).frame s.node.nodeId)
          starvation := 0 } := by
  obtain ⟨hoff, hdrop⟩ := PublishQueue.offer_single htot cls p
  obtain ⟨hfifo, -⟩ := hs.2.1 hidle hrun
  let x := enterRequesting r (((arrived c s).withPq (s.pq.setClassList cls [p])).withWindows ws)
  have hoffer : originationOffer x = some (.fresh p) := by
    rw [originationOffer_active (s := x) hmode hlen hres]
    exact congrArg (Option.map Offer.fresh) hoff
  rw [Event.finish_of_alone _ hs.1, Event.commit_of_nil _ rfl]
  change choices x = _
  rw [choices_departed (s := x) (r := r) hidle hrun hfifo hoffer rfl rfl rfl rfl fun h => (hs.2.2 h).2,
    afterRequest_enterRequesting, afterRequest_withWindows, afterRequest_withPq,
    show x.pq.dropOffer = s.pq from hdrop]
  have hpq : (((arrived c s).afterRequest r).withPq s.pq) = (arrived c s).afterRequest r := by
    rw [← afterRequest_withPq]; rfl
  rw [← hpq]
  rfl

/-- Settles O8: the new entry is the offer, and the idle link takes it. -/
theorem publishWriteDepartsOnAnIdleLink : Obligations.PublishWriteDepartsOnAnIdleLink := by
  intro addr lanes data i s hs ha hl hm hk hmode hidle hrun hlen hres
  dsimp only
  obtain ⟨hfifo, hoffer⟩ := hs.2.1 hidle hrun
  have htot : s.pq.total = 0 := by
    rw [originationOffer_active hmode hlen hres, Option.map_eq_none_iff] at hoffer
    exact PublishQueue.offer_eq_none hoffer
  have hempty := PublishQueue.total_eq_zero_iff.1 htot
  have hcl : classify s ⟨addr, .write, lanes, data⟩ = (.publish, some i) :=
    classify_publish rfl hl hm hk (.inr hmode)
  have hroom : s.pq.hasRoom s.windows[i].cls = true := by
    refine PublishQueue.hasRoom_iff.2 ⟨by omega, .inr ?_⟩
    unfold PublishQueue.total at htot
    omega
  have hcap := (Event.capture_of_alone
    (e := Event.begin (arrived ⟨addr, .write, lanes, data⟩ s))
    (r := captureRequest (arrived ⟨addr, .write, lanes, data⟩ s) ⟨addr, .write, lanes, data⟩ i)
    fun t ht => by rw [show (Event.begin (arrived ⟨addr, .write, lanes, data⟩ s)).pq.classList _ = [] from hempty _] at ht
                   cases ht).trans (if_pos hroom)
  rw [exec_acceptance ha, accept_publish hcl, acceptPublish_of_captured hcap, begin_createEntry,
    show (arrived ⟨addr, .write, lanes, data⟩ s).pq.classList _ = [] from hempty _, List.nil_append,
    State.setWindow, afterRequest_windows]
  exact congrArg Host.Outcome.next (finish_departed hs hmode hidle hrun hlen hres htot _ _ _ _)

/-! ## The publish hold and its expiry (R44, R46) -/

section Hold
variable {s : State} {c : HostCycle} {i : WinIdx}

/-- A PUBLISH write that finds no room, in PUBLISH_HOLD with its capture request kept (R9, R44). -/
def heldPublish (c : HostCycle) (i : WinIdx) (s : State) : State :=
  (s.withHost { s.host with path := .holding, cycle := some (c.record .publish (some i)), hold := .publishHold
                            holdStart := s.node.timebase, herr := false }).withPq
    { s.pq with held := some (captureRequest s c i) }

theorem acceptPublish_of_no_room (h : (Event.begin s).capture (captureRequest s c i) = none) :
    (Event.begin s).acceptPublish c i =
      if publishHoldDue (heldPublish c i s) then (Event.begin (heldPublish c i s)).expirePublishHold
      else Event.begin (heldPublish c i s) := by
  simp only [Event.acceptPublish, Event.begin_toState, h]
  rfl

/-- A hold that begins now has run out exactly when PHL is 0 (R46, R155). -/
theorem publishHoldDue_heldPublish : publishHoldDue (heldPublish c i s) = decide (s.node.params.phl = 0) := by
  have h : publishHoldDue (heldPublish c i s) =
      decide (s.node.params.phl.toNat ≤ (s.node.timebase - s.node.timebase).toNat) := rfl
  rw [h, BitVec.sub_self]
  simp [BitVec.toNat_eq]

theorem afterRequest_endPublishHold (cls : HostClass) (w : Option WinIdx) (s : State) (r : CycleRecord) :
    (endPublishHold cls w s).afterRequest r = (s.afterRequest r).withPq { s.pq with held := none } := by
  unfold State.afterRequest endPublishHold
  cases ha : s.arb.cycle <;> simp only [State.withPq_arb, State.withHost_arb, ha] <;> rfl

theorem afterRequest_heldPublish (r : CycleRecord) (q : PublishQueue) :
    ((heldPublish c i s).afterRequest r).withPq q =
      ((s.withHost { s.host with holdStart := s.node.timebase }).afterRequest r).withPq q := by
  unfold State.afterRequest heldPublish
  cases ha : s.arb.cycle <;> simp only [State.withPq_arb, State.withHost_arb, ha] <;> rfl

/-- The expiry demotes the write, raises its causes and posts its request (R46). -/
theorem finish_expired {r : CaptureRequest} {c : CycleRecord} (hm : s.moments = []) (ho : OutputSettled s)
    (hq : s.arb.cycle = none → s.aq.entries = []) (hr : s.resetN = true) (hh : s.host.hold = .publishHold)
    (he : s.host.herr = false) (hc : s.host.cycle = some c) (hw : c.window = some r.window) (hheld : s.pq.held = some r) :
    (Event.begin s).expirePublishHold.finish =
      (appendIncident ((s.afterRequest { c with cls := .unpublished }).withPq { s.pq with held := none })
        (.publishOverrun r.window r.cls c.word)).divergedAt r.window := by
  have hwin : heldWindow s = some r.window := by rw [heldWindow, hc]; exact hw
  have hexp : (Event.begin s).expirePublishHold =
      (((Event.begin s).raise (.publishOverrun r.window r.cls c.word)).on
        (endPublishHold .unpublished (some r.window))).requestDiverged r.window := by
    simp only [Event.expirePublishHold, Event.begin_toState, hc, hheld]
    exact Event.demoteUnpublished_of_window _ hh hwin
  have hcyc : (s.host.cycle.map fun x => { x with cls := .unpublished, window := some r.window }) =
      some { c with cls := .unpublished } := by
    rw [hc, ← hw]; rfl
  have hrank : (Occurrence.publishOverrun r.window r.cls c.word).rank ≤ (Occurrence.divergedMarked r.window).rank := by
    simp [Occurrence.rank, Occurrence.cause, Occurrence.window]
  rw [hexp, Event.finish_requested_diverged (r := { c with cls := .unpublished }) hr
    (fun p hp => by rw [List.mem_singleton.1 hp]; exact hrank) hm (ho.congr rfl rfl rfl) rfl hcyc rfl he hq,
    Event.commit_of_single _ _ hr rfl, afterRequest_appendIncident]
  exact congrArg (fun x => (appendIncident x _).divergedAt _) (afterRequest_endPublishHold _ _ _ _)

end Hold

/-- Settles O9: the hold, and its expiry at once when PHL is 0. -/
theorem publishWriteWithoutRoomIsHeld : Obligations.PublishWriteWithoutRoomIsHeld := by
  intro addr lanes data i s hs ha hl hm hk hmode
  dsimp only
  intro hn hroom
  have hcl : classify s ⟨addr, .write, lanes, data⟩ = (.publish, some i) := classify_publish rfl hl hm hk hmode
  have hcap := (Event.capture_of_alone
    (e := Event.begin (arrived ⟨addr, .write, lanes, data⟩ s))
    (r := captureRequest (arrived ⟨addr, .write, lanes, data⟩ s) ⟨addr, .write, lanes, data⟩ i)
    fun t ht hc => hn t ht (CaptureRequest.combinesWith_iff.1 hc)).trans
    (if_neg fun h => hroom (PublishQueue.hasRoom_iff.1 h))
  have ho : OutputSettled s := hs.2.1
  rw [exec_acceptance ha, accept_publish hcl, acceptPublish_of_no_room hcap, publishHoldDue_heldPublish,
    show (arrived ⟨addr, .write, lanes, data⟩ s).node.params.phl = s.node.params.phl from rfl]
  refine ⟨fun hphl => ?_, fun hphl => ?_⟩
  · rw [if_neg (fun h => hphl (of_decide_eq_true h)),
      Event.finish_of_settled_nil _ (hs.unrequested rfl rfl rfl rfl rfl rfl (fun h => by cases h)) rfl]
    rfl
  · have hfin := finish_expired
      (s := heldPublish ⟨addr, .write, lanes, data⟩ i (arrived ⟨addr, .write, lanes, data⟩ s))
      (r := captureRequest (arrived ⟨addr, .write, lanes, data⟩ s) ⟨addr, .write, lanes, data⟩ i)
      hs.1 (ho.congr rfl rfl rfl) (fun h => (hs.2.2 h).2) ha.1 rfl rfl rfl rfl rfl
    rw [if_pos (decide_eq_true hphl), hfin, afterRequest_heldPublish]
    rfl

/-- Settles O10: the expiry of the hold. -/
theorem publishHoldExpiryDemotesTheWrite : Obligations.PublishHoldExpiryDemotesTheWrite := by
  intro s hs hlaw hr hh hdue c hc r hheld
  obtain ⟨hfree, hhold, -, -, -, -, hwin, -, -, herr⟩ := hlaw
  have hpath : s.host.path ≠ .free := by
    rw [hhold.2 (by simp [hh])]
    decide
  have he : s.host.herr = false := by simpa using mt herr hpath
  have hrow : exec .publishHoldExpiry s = .next (Event.begin s).expirePublishHold.finish :=
    if_pos (by simpa [publishHoldDue, hh, elapsed] using hdue)
  rw [hrow, finish_expired hs.1 hs.2.1 (fun h => (hs.2.2 h).2) hr hh he hc (hwin r hheld c hc) hheld]

end Sys2Proof.Machine
end

section
/-! SUPPORT. The completion of a memory cycle: a host write, a host read, a word of the Apply Queue (sections 1.6, 7.2 to
7.5), and the statements about them. -/

namespace Sys2Proof.Machine

/-! ## Lanes of a word (R3) -/

section Lanes

theorem getLsbD_bytes (b0 b1 b2 b3 : Byte) (n : Nat) :
    (b3 ++ b2 ++ b1 ++ b0 : Word).getLsbD n =
      if n < 8 then b0.getLsbD n else if n - 8 < 8 then b1.getLsbD (n - 8)
      else if n - 8 - 8 < 8 then b2.getLsbD (n - 8 - 8) else b3.getLsbD (n - 8 - 8 - 8) := by
  show BitVec.getLsbD (w := 8 + 8 + 8 + 8) (b3 ++ b2 ++ b1 ++ b0) n = _
  simp only [BitVec.getLsbD_append]

theorem extract_lane (b0 b1 b2 b3 : Byte) (k : Fin 4) :
    (b3 ++ b2 ++ b1 ++ b0 : Word).extractLsb' (8 * k.val) 8 = #v[b0, b1, b2, b3][k] := by
  ext i hi
  rw [BitVec.getElem_extractLsb', getLsbD_bytes, ← BitVec.getLsbD_eq_getElem]
  match k with
  | 0 => rw [if_pos (by simp; omega)]; simp
  | 1 => rw [if_neg (by simp), if_pos (by simp; omega)]; simp
  | 2 =>
    rw [if_neg (by simp; omega), if_neg (by simp; omega), if_pos (by simp; omega)]
    rw [show 8 * (2 : Fin 4).val + i - 8 - 8 = i by simp; omega]
    rfl
  | 3 =>
    rw [if_neg (by simp; omega), if_neg (by simp; omega), if_neg (by simp; omega)]
    rw [show 8 * (3 : Fin 4).val + i - 8 - 8 - 8 = i by simp; omega]
    rfl

theorem laneBits_lane (l : Lanes) (k : Fin 4) :
    (laneBits l).extractLsb' (8 * k.val) 8 = if l.getLsbD k.val then 0xFF#8 else 0#8 := by
  rw [laneBits, extract_lane]
  fin_cases k <;> rfl

theorem mergeLanes_lane (old new : Word) (l : Lanes) (k : Fin 4) :
    (mergeLanes old new l).extractLsb' (8 * k.val) 8 =
      if l.getLsbD k.val then new.extractLsb' (8 * k.val) 8 else old.extractLsb' (8 * k.val) 8 := by
  have hm := laneBits_lane l k
  have hbit (i : Nat) (hi : i < 8) : (laneBits l).getLsbD (8 * k.val + i) = l.getLsbD k.val := by
    have := congrArg (fun b : Byte => b.getLsbD i) hm
    simp only [BitVec.getLsbD_extractLsb', hi, decide_true, Bool.true_and] at this
    rw [this]
    cases l.getLsbD k.val with
    | true => exact (by decide : ∀ i : Fin 8, (0xFF#8).getLsbD i.val = true) ⟨i, hi⟩
    | false => exact BitVec.getLsbD_zero
  ext i hi
  have hlt : 8 * k.val + i < 32 := by omega
  have hb := hbit i hi
  cases hl : l.getLsbD k.val <;>
    simp only [mergeLanes, BitVec.getElem_extractLsb', BitVec.getLsbD_or, BitVec.getLsbD_and, BitVec.getLsbD_not, hb, hl,
      hlt, decide_true, if_true, if_false, Bool.false_eq_true] <;> simp

theorem Memory.readWord_lane (m : Memory) (w : WordAddr) (k : Fin 4) :
    (m.readWord w).extractLsb' (8 * k.val) 8 = m.readByte (4 * w.toNat + k.val) := by
  rw [Memory.readWord, extract_lane]
  fin_cases k <;> rfl

end Lanes

/-! ## The completion of a host cycle (R14) -/

section HostDone
variable {s : State} {c : MemCycle}

/-- The state after a completed host cycle, before a new cycle is accepted (R14). -/
def hostDone (c : MemCycle) (sd : Word) (s : State) : State :=
  completeHostCycle (c.returns s.mem sd) (memoryServed c s)

theorem exec_hostDone (h : s.arb.cycle = some c) (hg : c.grant = .host) (sd : Word) :
    exec (.memoryCycleCompletion sd) s = .next (Event.begin (hostDone c sd s)).acceptPresented.finish := by
  rw [exec_memoryCycleCompletion, broughtEvent_memoryCycleCompletion, h]
  exact congrArg (fun e : Event => Host.Outcome.next e.finish) ((Event.begin s).memoryDone_of_host sd hg)

/-- A FREE port without a host request goes to the Apply Queue (R128, R133). -/
theorem arbitrate_unrequested (hp : s.host.path ≠ .requesting) (hc : s.arb.cycle = none) :
    arbitrate s = s.afterApplyGrant := by
  have hh : hostRequest s = none := if_neg hp
  unfold State.afterApplyGrant
  cases hq : s.aq.entries with
  | nil =>
    simp only [arbitrate, hc, arbiterChoice, hh, applyRequest, hq, List.head?_nil, Option.map_none]
    rw [← hc]; rfl
  | cons a rest =>
    simp only [arbitrate, hc, arbiterChoice, hh, applyRequest, hq, List.head?_cons, Option.map_some, ite_self, grantCycle,
      AqEntry.wordCycle, maskLanes, State.withArb_aq, markHeadWriting]

theorem hostDone_parts (c : MemCycle) (sd : Word) (s : State) :
    (hostDone c sd s).arb = { s.arb with cycle := none } ∧ (hostDone c sd s).host.path = .free ∧
      (hostDone c sd s).host.presented = s.host.presented ∧
      (hostDone c sd s).host.strobeHighSince = s.host.strobeHighSince ∧ (hostDone c sd s).resetN = s.resetN ∧
      (hostDone c sd s).moments = s.moments ∧ (hostDone c sd s).out = s.out ∧ (hostDone c sd s).link = s.link ∧
      (hostDone c sd s).orig = s.orig ∧ (hostDone c sd s).node = s.node ∧ (hostDone c sd s).pq = s.pq := by
  unfold hostDone memoryServed
  cases c.dir <;> exact ⟨rfl, rfl, rfl, rfl, rfl, rfl, rfl, rfl, rfl, rfl, rfl⟩

/-- The three ways a completed host cycle ends: the port goes to the Apply Queue, a new cycle is accepted, or a further
event of the moment makes the choice (R2, R133; assumption 25). -/
theorem hostDone_ends (hs : Settled s) (h : s.arb.cycle = some c) (hg : c.grant = .host) (sd : Word) :
    (s.host.presented = none ∨ s.host.strobeHighSince = false ∨ s.resetN = false →
      exec (.memoryCycleCompletion sd) s = .next (hostDone c sd s).afterApplyGrant) ∧
    (s.resetN = true → s.host.strobeHighSince = true → ∀ p ∈ s.host.presented,
      exec (.memoryCycleCompletion sd) s =
        exec (.hostCycleAcceptance p.addr p.dir p.lanes p.data) (hostDone c sd s)) ∧
    (s.host.presented = none ∨ s.host.strobeHighSince = false ∨ s.resetN = false →
      ∀ (k : Nat) (later : List Nat), exec (.memoryCycleCompletion sd) (s.withMoments ((k + 1) :: later)) =
        .next ((hostDone c sd s).withMoments (k :: later))) := by
  obtain ⟨harb, hpath, hpres, hnew, hr, hm, hout, hlink, horig, hnode, hpq⟩ := hostDone_parts c sd s
  refine ⟨fun hn => ?_, fun hrn hnw p hp => ?_, fun hn k later => ?_⟩
  · have ho : OutputSettled (hostDone c sd s) :=
      OutputSettled.congr hs.2.1 hout (by rw [hlink]) (originationOffer_congr horig (by rw [hnode]) (by rw [hpq]))
    rw [exec_hostDone h hg, Event.acceptPresented_of_none (e := Event.begin _) (by simpa [hpres, hnew, hr] using hn),
      Event.finish_of_output (hm.trans hs.1) ho, Event.commit_of_nil _ rfl, Event.begin_toState,
      arbitrate_unrequested (by simp [hpath]) (by simp [harb])]
  · have hpc : presentCycle p (hostDone c sd s) = hostDone c sd s := presentCycle_of_presented (hpres.trans hp)
    have hon : Event.begin (hostDone c sd s) =
        (Event.begin (hostDone c sd s)).on (presentCycle ⟨p.addr, p.dir, p.lanes, p.data⟩) :=
      congrArg Event.begin hpc.symm
    rw [exec_hostDone h hg, hon]
    rfl
  · have hd : hostDone c sd (s.withMoments ((k + 1) :: later)) = (hostDone c sd s).withMoments ((k + 1) :: later) := by
      unfold hostDone memoryServed
      cases c.dir <;> rfl
    rw [exec_hostDone (s := s.withMoments ((k + 1) :: later)) h hg, hd,
      Event.acceptPresented_of_none (e := Event.begin _) (by simpa [hpres, hnew, hr] using hn),
      Event.finish_of_shared (Event.begin _) rfl, Event.commit_of_nil _ rfl]
    rfl

end HostDone

/-- Settles O12: the three ends of the cycle, and memory byte by byte. -/
theorem hostWriteCycleCompletes : Obligations.HostWriteCycleCompletes := by
  intro sd w lanes data s hs hmem hc
  obtain ⟨hend, hnew, hshared⟩ := hostDone_ends hs hc rfl sd
  have hd : hostDone ⟨.host, w, .write, lanes, data⟩ sd s =
      ((s.withArb { s.arb with cycle := none }).withMem (s.mem.writeWord w lanes data)).withHost
        { s.host with path := .free, cycle := none, hold := .noHold, herr := false, hd := none
                      completions := s.host.completions + 1 } := by
    have hhd : (if strobeHeld s.host = true then (none : Option Word) else none) = none := ite_self none
    exact congrArg (fun d => ((s.withArb { s.arb with cycle := none }).withMem (s.mem.writeWord w lanes data)).withHost
      { s.host with path := .free, cycle := none, hold := .noHold, herr := false, hd := d
                    completions := s.host.completions + 1 }) hhd
  rw [hd] at hend hnew hshared
  exact ⟨hend, hnew, hshared, fun lane => Memory.readByte_writeWord_lane _ _ _ _ lane hmem,
    fun a ha => Memory.readByte_writeWord_ne _ _ _ _ a ha⟩

/-- Settles O13: the three ends of the cycle, and the data lane by lane. -/
theorem hostReadCycleReturnsMemory : Obligations.HostReadCycleReturnsMemory := by
  intro sd w lanes data s hs hc
  obtain ⟨hend, hnew, hshared⟩ := hostDone_ends hs hc rfl sd
  have hd : hostDone ⟨.host, w, .read, lanes, data⟩ sd s =
      (s.withArb { s.arb with cycle := none }).withHost
        { s.host with
          path := .free, cycle := none, hold := .noHold, herr := false
          hd := if s.host.presented.isSome = true ∧ s.host.strobeHighSince = false then
                  some (mergeLanes sd (s.mem.readWord w) lanes) else none
          returned := some (mergeLanes sd (s.mem.readWord w) lanes), completions := s.host.completions + 1 } := by
    have hheld : (strobeHeld s.host = true) = (s.host.presented.isSome = true ∧ s.host.strobeHighSince = false) := by
      simp [strobeHeld]
    simp only [hostDone, completeHostCycle, memoryServed, MemCycle.returns, State.withArb_host, hheld]
  rw [hd] at hend hnew hshared
  refine ⟨hend, hnew, hshared, fun lane => ?_⟩
  rw [mergeLanes_lane, Memory.readWord_lane]

end Sys2Proof.Machine
end

section
/-! SUPPORT. What stands at the end of an event that leaves the Output Arbiter nothing to choose, and the management
command that brings an event about. -/

namespace Sys2Proof.Machine

/-! ## The Memory Arbiter's choice (R133) -/

section Arbiter
variable {s t : State}

/-- The choice looks at the Host Path, the Apply Queue and the port alone. -/
theorem arbitrate_congr (hh : t.host = s.host) (hq : t.aq = s.aq) (ha : t.arb = s.arb) :
    (arbitrate t).host = (arbitrate s).host ∧ (arbitrate t).aq = (arbitrate s).aq ∧
      (arbitrate t).arb = (arbitrate s).arb := by
  have hr : hostRequest t = hostRequest s := by rw [hostRequest, hostRequest, hh]
  have hp : applyRequest t = applyRequest s := by rw [applyRequest, applyRequest, hq]
  have hc : arbiterChoice t = arbiterChoice s := by rw [arbiterChoice, arbiterChoice, hr, hp, hh, ha]
  unfold arbitrate
  rw [hc, ha]
  cases s.arb.cycle with
  | some m => exact ⟨hh, hq, ha⟩
  | none =>
    cases arbiterChoice s with
    | none => exact ⟨hh, hq, ha⟩
    | some m => cases hg : m.grant <;> simp [grantCycle, hg, hh, hq]

/-- A port without a request, or busy, chooses nothing. -/
theorem arbitrate_still (h : s.arb.cycle = none → hostRequest s = none ∧ s.aq.entries = []) : arbitrate s = s := by
  cases hc : s.arb.cycle with
  | some m => exact arbitrate_of_busy s (by simp [hc])
  | none =>
    obtain ⟨hh, hq⟩ := h hc
    simp [arbitrate, hc, arbiterChoice, hh, applyRequest, hq]

theorem arbitrate_quiet (hq : s.arb.cycle = none → s.aq.entries = []) (hp : s.host.path ≠ .requesting) :
    arbitrate s = s :=
  arbitrate_still fun h => ⟨if_neg hp, hq h⟩

/-- A FREE port with the host's request, and no entry or the last grant to the Apply Queue, goes to the host. -/
theorem arbitrate_host_granted (ha : s.arb.cycle = none) {r : CycleRecord} (hp : s.host.path = .requesting)
    (hc : s.host.cycle = some r) (hh : s.host.hold ≠ .readHold) (hq : s.aq.entries = [] ∨ s.arb.lastGrant = .apply) :
    arbitrate s = (s.withArb
      { cycle := some { grant := .host, word := r.word, dir := r.dir, lanes := r.lanes, data := r.data.getD 0 }
        lastGrant := .host }).withHost { s.host with path := .memory } := by
  have hr : hostRequest s =
      some { grant := .host, word := r.word, dir := r.dir, lanes := r.lanes, data := r.data.getD 0 } := by
    rw [hostRequest, if_pos hp, hc]; rfl
  have hch : arbiterChoice s = hostRequest s := by
    cases he : s.aq.entries with
    | nil => simp [arbiterChoice, hr, applyRequest, he]
    | cons a rest =>
      have hl : s.arb.lastGrant = .apply := hq.resolve_left (by simp [he])
      simp [arbiterChoice, hr, applyRequest, he, hh, hl]
  simp only [arbitrate, ha, hch, hr, grantCycle, State.withArb_host]

/-- A request beside an Apply Queue without one is granted when the port is FREE, and waits when it is busy. -/
theorem arbitrate_posted (hq : s.arb.cycle = none → s.aq.entries = []) {r : CycleRecord}
    (hp : s.host.path = .requesting) (hc : s.host.cycle = some r) (hh : s.host.hold ≠ .readHold) :
    (arbitrate s).aq = s.aq ∧
      (arbitrate s).host = { s.host with path := if s.arb.cycle = none then .memory else .requesting } ∧
      (s.arb.cycle = none → (arbitrate s).arb.cycle.map MemCycle.grant = some .host) ∧
      (s.arb.cycle.isSome = true → (arbitrate s).arb = s.arb) := by
  cases ha : s.arb.cycle with
  | some m =>
    rw [arbitrate_of_busy s (by simp [ha])]
    exact ⟨rfl, by rw [← hp]; rfl, fun h => (nomatch h), fun _ => rfl⟩
  | none =>
    rw [arbitrate_host_granted ha hp hc hh (.inl (hq ha))]
    exact ⟨rfl, rfl, fun _ => rfl, fun h => (nomatch h)⟩

end Arbiter

/-! ## The end of an event (R163) -/

/-- What stands when an event is closed and the Output Arbiter chose nothing. -/
structure Ended (e : Event) (t : State) : Prop where
  resetN : t.resetN = e.resetN
  windows : t.windows = e.windows
  pq : t.pq = e.pq
  orig : t.orig = e.orig
  link : t.link = e.link
  out : t.out = e.out
  sources : t.sources = e.sources
  node : t.node = e.node
  mem : t.mem = e.mem
  attn : t.attn = e.commit.attn
  mgmt : t.mgmt = e.commit.mgmt
  host : t.host = (arbitrate e.toState).host
  aq : t.aq = (arbitrate e.toState).aq
  arb : t.arb = (arbitrate e.toState).arb

theorem Event.ended_arbitrate (e : Event) (m : List Nat) : Ended e (arbitrate (e.commit.withMoments m)) := by
  obtain ⟨hh, hq, ha⟩ := arbitrate_congr (s := e.toState) (t := e.commit.withMoments m)
    (by simp) (by simp) (by simp)
  exact ⟨by simp, by simp, by simp, by simp, by simp, by simp, by simp, by simp, by simp, by simp, by simp, hh, hq, ha⟩

/-- An event that ends its moment and leaves the Output Arbiter nothing to choose ends with the Memory Arbiter's choice. -/
theorem Event.finish_ended {e : Event} (hm : e.moments = [] ∨ ∃ later, e.moments = 0 :: later)
    (ho : OutputSettled e.toState) : Ended e e.finish := by
  have hc := Event.outputSettled_commit ho
  rcases hm with hm | ⟨later, hm⟩
  · have hself : e.commit.withMoments [] = e.commit := by
      rw [← hm, ← Event.commit_moments e]; rfl
    have := e.ended_arbitrate []
    rwa [hself, ← hc.choices, ← e.finish_of_alone hm] at this
  · rw [e.finish_of_last hm, OutputSettled.choices (s := e.commit.withMoments later)
      (hc.congr rfl rfl (originationOffer_congr rfl rfl rfl))]
    exact e.ended_arbitrate later

/-- Where the Memory Arbiter has nothing to choose either, its blocks stand. -/
theorem Ended.quiet {e : Event} {t : State} (h : Ended e t) (hq : e.arb.cycle = none → e.aq.entries = [])
    (hp : e.host.path ≠ .requesting) : t.host = e.host ∧ t.aq = e.aq ∧ t.arb = e.arb := by
  have ha : arbitrate e.toState = e.toState := arbitrate_quiet hq hp
  exact ⟨by rw [h.host, ha], by rw [h.aq, ha], by rw [h.arb, ha]⟩

theorem Ended.still {e : Event} {t : State} (h : Ended e t)
    (hq : e.arb.cycle = none → hostRequest e.toState = none ∧ e.aq.entries = []) :
    t.host = e.host ∧ t.aq = e.aq ∧ t.arb = e.arb := by
  have ha : arbitrate e.toState = e.toState := arbitrate_still hq
  exact ⟨by rw [h.host, ha], by rw [h.aq, ha], by rw [h.arb, ha]⟩

/-- The request that the event leaves is granted when the port is FREE, and waits when it is busy. -/
theorem Ended.posted {e : Event} {t : State} (h : Ended e t) (hq : e.arb.cycle = none → e.aq.entries = [])
    {r : CycleRecord} (hp : e.host.path = .requesting) (hc : e.host.cycle = some r) (hh : e.host.hold ≠ .readHold) :
    t.aq = e.aq ∧ t.host = { e.host with path := if e.arb.cycle = none then .memory else .requesting } ∧
      (e.arb.cycle = none → t.arb.cycle.map MemCycle.grant = some .host) ∧
      (e.arb.cycle.isSome = true → t.arb = e.arb) := by
  rw [h.aq, h.host, h.arb]
  exact arbitrate_posted hq hp hc hh

/-! ## A management command's response (R176) -/

/-- The port RESPONDING with a response at position 0 (R176). -/
def State.responding (s : State) (c : Command) (args response : List Byte) : State :=
  s.withMgmt { s.mgmt with
    txn := { s.mgmt.txn with port := .responding, bitCount := 0, shift := 0, command := some c, args := args
                             response := some response, position := 0 } }

theorem commandRow_responding {c : Command} {args response : List Byte} {s u : State}
    (hc : Completing s (c.code :: args)) (he : c.effect args (setMclk true s) = (u, response)) :
    commandRow c args s = .next (u.responding c args response) := by
  rw [commandRow_eq, if_pos hc, executeCommand_eq, he]
  rfl

/-- Where the event raised no cause, the port is as the answer of the state it began in. -/
theorem responding_mgmt {u s : State} (h : u.mgmt = (setMclk true s).mgmt) (c : Command) (args response : List Byte) :
    (u.responding c args response).mgmt = (s.answered c args response).mgmt := by
  unfold State.responding
  rw [State.withMgmt_mgmt, h]
  rfl

end Sys2Proof.Machine
end

section
/-! SUPPORT. DISABLE_WINDOW (R30 to R33, R49), and the statement about it. -/

namespace Sys2Proof.Machine

section Disable
variable {s : State} {i : WinIdx}

/-! ## A held write demoted to PLAIN (R49) -/

theorem demotePlain_of_held (h : s.host.hold = .publishHold) : demotePlain s = endPublishHold .plain none s := if_pos h

/-- A demotion to PLAIN changes the Host Path and the held request alone. -/
theorem demotePlain_eq (s : State) :
    ∃ h q, demotePlain s = (s.withHost h).withPq { s.pq with held := q } := by
  by_cases h : s.host.hold = .publishHold
  · exact ⟨_, none, demotePlain_of_held h⟩
  · exact ⟨s.host, s.pq.held, demotePlain_of_ne s h⟩

theorem demoteHeldOn_eq (i : WinIdx) (s : State) :
    ∃ h q, demoteHeldOn i s = (s.withHost h).withPq { s.pq with held := q } := by
  unfold demoteHeldOn
  split
  · exact demotePlain_eq s
  · exact ⟨s.host, s.pq.held, rfl⟩

theorem demoteHeldOn_of_ne (h : s.host.hold ≠ .publishHold ∨ heldWindow s ≠ some i) : demoteHeldOn i s = s := by
  unfold demoteHeldOn
  split
  next hw => exact demotePlain_of_ne s (h.resolve_right (not_not.2 hw))
  next => rfl

theorem demoteHeldOn_of_held (h : s.host.hold = .publishHold) (hw : heldWindow s = some i) :
    demoteHeldOn i s = endPublishHold .plain none s := by
  rw [demoteHeldOn, if_pos hw, demotePlain_of_held h]

/-! ## Voiding (R131) -/

/-- The entries that a voiding leaves. -/
theorem voidWaiting_aq (which : AqEntry → Bool) (s : State) :
    (voidWaiting which s).aq =
      { s.aq with entries := s.aq.entries.filter fun a => !(a.state = .waiting && which a) } := by
  rw [voidWaiting, releaseReadHold_aq]
  rfl

theorem voidWaiting_host_of_ne (which : AqEntry → Bool) (h : s.host.hold ≠ .readHold) :
    (voidWaiting which s).host = s.host := by
  unfold voidWaiting
  rcases releaseReadHold_cases (s.withAq { s.aq with
    entries := s.aq.entries.filter fun a => !(a.state = .waiting && which a) }) with ⟨hr, -, -⟩ | ⟨-, he⟩
  · exact absurd hr h
  · rw [he]; rfl

/-- A read that is left with an entry at or before its mark stays held (R135). -/
theorem voidWaiting_host_of_kept (which : AqEntry → Bool)
    (h : ∃ a ∈ (voidWaiting which s).aq.entries, (s.host.holdMark - a.acc).toNat < 32768) :
    (voidWaiting which s).host = s.host := by
  rw [voidWaiting_aq] at h
  unfold voidWaiting
  rcases releaseReadHold_cases (s.withAq { s.aq with
    entries := s.aq.entries.filter fun a => !(a.state = .waiting && which a) }) with ⟨-, hn, -⟩ | ⟨-, he⟩
  · obtain ⟨a, ha, hlt⟩ := h
    exact absurd hlt (hn a ha)
  · rw [he]; rfl

/-- A read that is left with no entry at or before its mark is released (R135). -/
theorem voidWaiting_host_of_released (which : AqEntry → Bool) (hh : s.host.hold = .readHold)
    (h : ∀ a ∈ (voidWaiting which s).aq.entries, ¬(s.host.holdMark - a.acc).toNat < 32768) :
    (voidWaiting which s).host = { s.host with path := .requesting, hold := .noHold } := by
  rw [voidWaiting_aq] at h
  unfold voidWaiting
  rcases releaseReadHold_cases (s.withAq { s.aq with
    entries := s.aq.entries.filter fun a => !(a.state = .waiting && which a) }) with ⟨-, -, he⟩ | ⟨hn, -⟩
  · rw [he]; rfl
  · exact absurd ⟨hh, h⟩ hn

/-! ## The effect -/

/-- What DISABLE_WINDOW does as one event. -/
def disabled (i : WinIdx) (s : State) : State := voidOfWindow i (demoteHeldOn i (disableRecord i s))

theorem disableWindowEffect_of_lt {n : Byte} (h : n.toNat = i.val) (s : State) : disableWindowEffect n s =
    if s.windows[i].enabled then ((Event.begin (disabled i s)).finish, [statusOk]) else (s, [statusOk]) := by
  rw [disableWindowEffect, withIndex_of_lt n s _ i h]
  rfl

theorem disableWindowEffect_of_ge {n : Byte} (h : 16 ≤ n.toNat) (s : State) :
    disableWindowEffect n s = (s, [statusBadArg]) := withIndex_of_ge n s _ h

/-- The voiding of DISABLE_WINDOW is of the window's WAITING entries, and of none of an OWNED window. -/
theorem voidOfWindow_aq (i : WinIdx) (s : State) : (voidOfWindow i s).aq = { s.aq with
    entries := s.aq.entries.filter fun a => !(s.windows[i].kind = .mirror && a.state = .waiting && a.window = i) } := by
  unfold voidOfWindow
  split
  next hk =>
    rw [voidWaiting_aq]
    simp only [hk, decide_true, Bool.true_and]
  next hk =>
    have : s.aq.entries.filter (fun a => !(s.windows[i].kind = .mirror && a.state = .waiting && a.window = i)) =
        s.aq.entries := List.filter_eq_self.2 fun a _ => by
          simp only [hk, decide_false, Bool.false_and, Bool.not_false]
    rw [this]

theorem voidOfWindow_host (i : WinIdx) (s : State) : ∃ h, voidOfWindow i s = (s.withAq (voidOfWindow i s).aq).withHost h := by
  by_cases hk : s.windows[i].kind = .mirror
  · have hv : voidOfWindow i s = voidWaiting (fun a => a.window = i) s := if_pos hk
    rw [hv, voidWaiting_aq]
    unfold voidWaiting
    rcases releaseReadHold_cases (s.withAq { s.aq with
      entries := s.aq.entries.filter fun a => !(a.state = .waiting && decide (a.window = i)) }) with ⟨-, -, he⟩ | ⟨-, he⟩
    · rw [he]; exact ⟨_, rfl⟩
    · rw [he]; exact ⟨s.host, rfl⟩
  · have hv : voidOfWindow i s = s := if_neg hk
    rw [hv]
    exact ⟨s.host, rfl⟩

/-- The entries of the Apply Queue that DISABLE_WINDOW leaves (R32). -/
def entriesLeft (i : WinIdx) (s : State) : List AqEntry :=
  s.aq.entries.filter fun a => !(s.windows[i].kind = .mirror && a.state = .waiting && a.window = i)

/-- A window disabled changes the Host Path, the held request, the windows and the Apply Queue alone. -/
theorem disabled_eq (i : WinIdx) (s : State) :
    ∃ h q, disabled i s = (((s.setWindow i { s.windows[i] with enabled := false }).withPq
      { s.pq with held := q }).withAq { s.aq with entries := entriesLeft i s }).withHost h := by
  obtain ⟨h, q, hd⟩ := demoteHeldOn_eq i (disableRecord i s)
  obtain ⟨h', hv⟩ := voidOfWindow_host i (demoteHeldOn i (disableRecord i s))
  have hkind : ((demoteHeldOn i (disableRecord i s)).windows[i]).kind = s.windows[i].kind := by
    rw [hd]
    simp [disableRecord]
  have haq := voidOfWindow_aq i (demoteHeldOn i (disableRecord i s))
  rw [hkind, hd] at haq
  refine ⟨h', q, ?_⟩
  rw [disabled, hv, hd, haq]
  rfl

/-! ### The Host Path and the held request after DISABLE_WINDOW -/

theorem disabled_of_held (h : s.host.hold = .publishHold) (hw : heldWindow s = some i) :
    (disabled i s).host = (endPublishHold .plain none s).host ∧ (disabled i s).pq = { s.pq with held := none } := by
  have hd : demoteHeldOn i (disableRecord i s) = endPublishHold .plain none (disableRecord i s) :=
    demoteHeldOn_of_held h hw
  unfold disabled voidOfWindow
  rw [hd]
  split
  · exact ⟨voidWaiting_host_of_ne _ (fun hx => by cases hx), voidWaiting_pq _ _⟩
  · exact ⟨rfl, rfl⟩

/-- No write held on the window: the voiding alone touches the Host Path. -/
theorem disabled_of_not_held (h : s.host.hold ≠ .publishHold ∨ heldWindow s ≠ some i) :
    disabled i s = voidOfWindow i (disableRecord i s) := by
  rw [disabled, demoteHeldOn_of_ne (s := disableRecord i s) h]

theorem disabled_pq_of_not_held (h : s.host.hold ≠ .publishHold ∨ heldWindow s ≠ some i) :
    (disabled i s).pq = s.pq := by
  rw [disabled_of_not_held h, voidOfWindow]
  split
  · exact voidWaiting_pq _ _
  · rfl

theorem disabled_host_of_not_held (h : s.host.hold ≠ .publishHold ∨ heldWindow s ≠ some i)
    (hk : s.host.hold ≠ .readHold ∨ s.windows[i].kind ≠ .mirror ∨
      ∃ a ∈ (disabled i s).aq.entries, (s.host.holdMark - a.acc).toNat < 32768) :
    (disabled i s).host = s.host := by
  rw [disabled_of_not_held h, voidOfWindow] at hk ⊢
  have hkind : (disableRecord i s).windows[i].kind = s.windows[i].kind := by simp [disableRecord]
  rw [hkind] at hk ⊢
  split
  next hm =>
    rw [if_pos hm] at hk
    rcases hk with hk | hk | hk
    · exact voidWaiting_host_of_ne _ hk
    · exact absurd hm hk
    · exact voidWaiting_host_of_kept (s := disableRecord i s) _ hk
  next => rfl

theorem disabled_host_of_released (hh : s.host.hold = .readHold) (hk : s.windows[i].kind = .mirror)
    (h : ∀ a ∈ (disabled i s).aq.entries, ¬(s.host.holdMark - a.acc).toNat < 32768) :
    (disabled i s).host = { s.host with path := .requesting, hold := .noHold } := by
  have hne : s.host.hold ≠ .publishHold ∨ heldWindow s ≠ some i := .inl fun hx => by rw [hh] at hx; cases hx
  have hkind : (disableRecord i s).windows[i].kind = .mirror := by simpa [disableRecord] using hk
  rw [disabled_of_not_held hne, voidOfWindow, if_pos hkind] at h ⊢
  exact voidWaiting_host_of_released (s := disableRecord i s) _ hh h

theorem disabled_aq (i : WinIdx) (s : State) : (disabled i s).aq = { s.aq with entries := entriesLeft i s } := by
  obtain ⟨h, q, hd⟩ := disabled_eq i s
  rw [hd]
  rfl

/-- DISABLE_WINDOW on an enabled window answers OK after its event. -/
theorem exec_disableWindow {n : Byte} (hc : Completing s [0x13, n]) (hn : n.toNat = i.val)
    (he : s.windows[i].enabled = true) : exec (.disableWindow n) s =
      .next ((Event.begin (disabled i (setMclk true s))).finish.responding .disableWindow [n] [0x00]) := by
  refine commandRow_responding hc ?_
  exact (disableWindowEffect_of_lt (s := setMclk true s) hn).trans (if_pos he)

/-- The offer of the Origination Unit is as it was. -/
theorem outputSettled_disabled (h : OutputSettled s) : OutputSettled (disabled i s) := by
  obtain ⟨p, q, hd⟩ := disabled_eq i s
  rw [hd]
  exact h.congr rfl rfl rfl

end Disable

/-- A cycle in a hold is present (R1). -/
theorem HostLaw.cycle_of_hold {s : State} (h : HostLaw s) (hh : s.host.hold ≠ .noHold) :
    ∃ c, s.host.cycle = some c ∧ s.host.path = .holding ∧ s.host.herr = false := by
  obtain ⟨hfree, hhold, -, -, -, -, -, -, -, herr⟩ := h
  have hp : s.host.path = .holding := hhold.2 hh
  have hne : s.host.path ≠ .free := by rw [hp]; decide
  obtain ⟨c, hc⟩ := Option.ne_none_iff_exists'.1 (mt hfree.2 hne)
  exact ⟨c, hc, hp, by simpa using mt herr hne⟩

theorem Ended.aq_eq {e : Event} {t : State} (h : Ended e t) (hq : e.arb.cycle = none → e.aq.entries = []) :
    t.aq = e.aq := by
  rw [h.aq]
  cases hc : e.arb.cycle with
  | none => exact arbitrate_aq_of_nil (hq hc)
  | some m => rw [arbitrate_of_busy _ (by simp [hc])]

/-- Settles O51: the event's next state field by field, and the Host Path by the hold it was in. -/
theorem disableWindowVoidsAndDemotes : Obligations.DisableWindowVoidsAndDemotes := by
  intro n s hs hlaw hc
  refine ⟨fun hn => ?_, fun i hn => ⟨fun he => ?_, fun he => ?_⟩⟩
  · exact commandRow_answered hc (disableWindowEffect_of_ge hn (setMclk true s))
  · exact commandRow_answered hc ((disableWindowEffect_of_lt (s := setMclk true s) hn).trans
      (if_neg (by rw [show (setMclk true s).windows = s.windows from rfl, he]; exact Bool.false_ne_true)))
  · obtain ⟨p, q, hd⟩ := disabled_eq i (setMclk true s)
    have hend : Ended (Event.begin (disabled i (setMclk true s))) _ :=
      Event.finish_ended (.inl (by rw [hd]; exact hs.1)) (outputSettled_disabled (OutputSettled.congr hs.2.1 rfl rfl rfl))
    have hcommit : (Event.begin (disabled i (setMclk true s))).commit = disabled i (setMclk true s) :=
      Event.commit_of_nil _ rfl
    have harb : (disabled i (setMclk true s)).arb = s.arb := by rw [hd]; rfl
    have haq := disabled_aq i (setMclk true s)
    have hq : (disabled i (setMclk true s)).arb.cycle = none → (disabled i (setMclk true s)).aq.entries = [] := fun h => by
      rw [harb] at h
      rw [haq]
      show s.aq.entries.filter _ = []
      rw [(hs.2.2 h).2]
      rfl
    have hkept := hend.aq_eq hq
    have hent : (disabled i (setMclk true s)).aq.entries = _ := (congrArg ApplyQueue.entries hkept).symm
    have hstand (h : s.host.hold ≠ .publishHold ∨ heldWindow s ≠ some i)
        (hk : s.host.hold ≠ .readHold ∨ s.windows[i].kind ≠ .mirror ∨
          ∃ a ∈ (disabled i (setMclk true s)).aq.entries, (s.host.holdMark - a.acc).toNat < 32768) :=
      have hhost : (disabled i (setMclk true s)).host = s.host :=
        disabled_host_of_not_held (s := setMclk true s) h hk
      have hreq : hostRequest (disabled i (setMclk true s)) = hostRequest s := by rw [hostRequest, hostRequest, hhost]
      have hst := hend.still fun ha => ⟨hreq.trans (hs.2.2 (harb ▸ ha)).1, hq ha⟩
      And.intro (hst.1.trans hhost) (hst.2.2.trans harb)
    have hpq (h : s.host.hold ≠ .publishHold ∨ heldWindow s ≠ some i) :=
      hend.pq.trans (disabled_pq_of_not_held (s := setMclk true s) h)
    refine ⟨_, exec_disableWindow hc hn he, ⟨hend.orig.trans (by rw [Event.begin_toState, hd]; rfl),
      hend.link.trans (by rw [Event.begin_toState, hd]; rfl), hend.out.trans (by rw [Event.begin_toState, hd]; rfl),
      hend.sources.trans (by rw [Event.begin_toState, hd]; rfl), hend.node.trans (by rw [Event.begin_toState, hd]; rfl)⟩,
      hend.mem.trans (by rw [Event.begin_toState, hd]; rfl), hend.attn.trans (by rw [hcommit, hd]; rfl),
      responding_mgmt (hend.mgmt.trans (by rw [hcommit, hd]; rfl)) _ _ _,
      hend.windows.trans (by rw [Event.begin_toState, hd]; rfl),
      (congrArg ApplyQueue.nextAcc hkept).trans (by rw [Event.begin_toState, haq]; rfl),
      (congrArg ApplyQueue.entries hkept).trans (by rw [Event.begin_toState, haq]; rfl), ?_⟩
    refine ⟨fun hh hw => ?_, fun hh hw => ?_, fun hh => ?_, fun hh => ⟨?_, ?_, fun hk => ?_, fun hk hex => ?_, fun hk hb hn => ?_⟩⟩
    · obtain ⟨c, hcyc, -, -⟩ := hlaw.cycle_of_hold (by rw [hh]; decide)
      have hwin : heldWindow (setMclk true s) = some i := by
        rw [heldWindow, show (setMclk true s).host = s.host from rfl, hcyc]
        exact hw c hcyc
      obtain ⟨hhost, hpq⟩ := disabled_of_held (s := setMclk true s) hh hwin
      have hx : (endPublishHold .plain none (setMclk true s)).host.cycle = some { c with cls := .plain, window := none } := by
        show s.host.cycle.map _ = _
        rw [hcyc]
        rfl
      obtain ⟨-, hth, -, -⟩ := hend.posted hq (by rw [Event.begin_toState, hhost]; rfl)
        (by rw [Event.begin_toState, hhost, hx]) (by rw [Event.begin_toState, hhost]; exact fun h => by cases h)
      rw [Event.begin_toState, hhost, harb] at hth
      exact ⟨hend.pq.trans hpq, congrArg HostPath.hold hth, (congrArg HostPath.cycle hth).trans rfl,
        congrArg HostPath.path hth⟩
    · obtain ⟨c, hcyc, hne⟩ := hw
      have hwin : heldWindow s ≠ some i := by rw [heldWindow, hcyc]; exact hne
      exact ⟨hpq (.inr hwin), (hstand (.inr hwin) (.inl (by rw [hh]; decide))).1⟩
    · have hne : s.host.hold ≠ .publishHold := by rw [hh]; decide
      obtain ⟨hth, hta⟩ := hstand (.inl hne) (.inl (by rw [hh]; decide))
      exact ⟨hpq (.inl hne), hth, hta⟩
    · exact hpq (.inl (by rw [hh]; decide))
    · by_cases hk : s.windows[i].kind = .mirror ∧
          ∀ a ∈ (disabled i (setMclk true s)).aq.entries, ¬(s.host.holdMark - a.acc).toNat < 32768
      · have hx := disabled_host_of_released (s := setMclk true s) hh hk.1 hk.2
        obtain ⟨c, hcyc, -, -⟩ := hlaw.cycle_of_hold (by rw [hh]; decide)
        obtain ⟨-, hth, -, -⟩ := hend.posted hq (by rw [Event.begin_toState, hx])
          (by rw [Event.begin_toState, hx]; exact hcyc) (by rw [Event.begin_toState, hx]; exact fun h => by cases h)
        exact (congrArg HostPath.cycle hth).trans (by rw [Event.begin_toState, hx]; rfl)
      · have hk' : s.windows[i].kind ≠ .mirror ∨
            ∃ a ∈ (disabled i (setMclk true s)).aq.entries, (s.host.holdMark - a.acc).toNat < 32768 := by
          by_cases hm : s.windows[i].kind = .mirror
          · push Not at hk
            exact .inr (hk hm)
          · exact .inl hm
        exact congrArg HostPath.cycle (hstand (.inl (by rw [hh]; decide)) (.inr hk')).1
    · exact (hstand (.inl (by rw [hh]; decide)) (.inr (.inl (by rw [hk]; decide)))).1
    · exact (hstand (.inl (by rw [hh]; decide)) (.inr (.inr (by rw [hent]; exact hex)))).1
    · have hx := disabled_host_of_released (s := setMclk true s) hh hk (by rw [hent]; exact hn)
      have ha : arbitrate (Event.begin (disabled i (setMclk true s))).toState = disabled i (setMclk true s) :=
        arbitrate_of_busy _ (by rw [Event.begin_toState, harb]; exact hb)
      exact hend.host.trans (by rw [ha, hx]; rfl)

end Sys2Proof.Machine
end

section
/-! SUPPORT. Which windows an event marks DIVERGED and which causes are pending after it (R21, R161 to R163): later proofs
follow the requests of a discard or an isolation through these and do not unfold them. -/

namespace Sys2Proof.Machine

/-! ## Pending causes (R162) -/

theorem causeBit_self (o : Occurrence) : (causeBit o).getLsbD (o.cause - 1) = true := by
  have bit : ∀ k : Fin 14, (1#14 <<< k.val).getLsbD k.val = true := by decide
  have hlt : o.cause - 1 < 14 := by cases o <;> simp [Occurrence.cause]
  exact bit ⟨_, hlt⟩

/-- A cause raised in an event is pending after it. -/
theorem Event.pending_commit {e : Event} (hr : e.resetN = true) {o : Occurrence} (ho : o ∈ e.raised) :
    Pending e.commit o.cause := by
  have fold (l : List Occurrence) (s : State) (h : o ∈ l ∨ Pending s o.cause) :
      Pending (l.foldl appendIncident s) o.cause := by
    induction l generalizing s with
    | nil => exact h.resolve_left (by simp)
    | cons p ps ih =>
      refine ih _ ?_
      rcases h with h | h
      · rcases List.mem_cons.1 h with rfl | h
        · exact .inr (by simp [Pending, appendIncident_raisedSet, causeBit_self])
        · exact .inl h
      · refine .inr ?_
        unfold Pending at h ⊢
        rw [appendIncident_raisedSet, BitVec.getLsbD_or, h, Bool.true_or]
  unfold Event.commit
  rw [if_pos hr]
  exact fold _ _ (.inl ((mem_inRankOrder o e.raised).2 ho))

theorem Event.pending_finish {e : Event} (hr : e.resetN = true) {o : Occurrence} (ho : o ∈ e.raised) :
    Pending e.finish o.cause := by
  unfold Pending
  rw [Event.finish_attn]
  exact Event.pending_commit hr ho

/-! ## DIVERGED requests (R21) -/

/-- From e to f the windows that satisfy P, where OWNED, are marked DIVERGED and nothing else of a window changes; the
cause of a flag that was clear is raised, and none is lost. -/
structure Event.Marks (P : WinIdx → Prop) (e f : Event) : Prop where
  marked : ∀ j : WinIdx, P j → e.windows[j].kind = .owned → f.windows[j] = { e.windows[j] with diverged := true }
  kept : ∀ j : WinIdx, ¬(P j ∧ e.windows[j].kind = .owned) → f.windows[j] = e.windows[j]
  raised : ∀ o ∈ e.raised, o ∈ f.raised
  caused : ∀ j : WinIdx, P j → e.windows[j].kind = .owned → e.windows[j].diverged = false →
    .divergedMarked j ∈ f.raised

section Marks
variable {P Q : WinIdx → Prop} {e f g : Event}

theorem Event.Marks.congr (h : e.Marks P f) (hpq : ∀ j, P j ↔ Q j) : e.Marks Q f := by
  obtain rfl : P = Q := funext fun j => propext (hpq j)
  exact h

/-- Nothing is marked. -/
theorem Event.Marks.none (hw : f.windows = e.windows) (hr : ∀ o ∈ e.raised, o ∈ f.raised) :
    e.Marks (fun _ => False) f :=
  ⟨fun _ h => h.elim, fun _ _ => by rw [hw], hr, fun _ h => h.elim⟩

theorem Event.Marks.kind (h : e.Marks P f) (j : WinIdx) : f.windows[j].kind = e.windows[j].kind := by
  by_cases hp : P j ∧ e.windows[j].kind = .owned
  · rw [h.marked j hp.1 hp.2]
  · rw [h.kept j hp]

theorem Event.Marks.trans (h : e.Marks P f) (k : f.Marks Q g) : e.Marks (fun j => P j ∨ Q j) g := by
  refine ⟨fun j hp ho => ?_, fun j hn => ?_, fun o ho => k.raised o (h.raised o ho), fun j hp ho hd => ?_⟩
  · by_cases hpj : P j
    · by_cases hq : Q j
      · rw [k.marked j hq ((h.kind j).trans ho), h.marked j hpj ho]
      · rw [k.kept j fun hx => hq hx.1, h.marked j hpj ho]
    · rw [k.marked j (hp.resolve_left hpj) ((h.kind j).trans ho), h.kept j fun hx => hpj hx.1]
  · rw [k.kept j fun hx => hn ⟨.inr hx.1, (h.kind j).symm.trans hx.2⟩, h.kept j fun hx => hn ⟨.inl hx.1, hx.2⟩]
  · by_cases hpj : P j
    · exact k.raised _ (h.caused j hpj ho hd)
    · have hw := h.kept j fun hx => hpj hx.1
      exact k.caused j (hp.resolve_left hpj) ((h.kind j).trans ho) (by rw [hw]; exact hd)

theorem Event.Marks.trans_none (h : e.Marks P f) (hw : g.windows = f.windows) (hr : ∀ o ∈ f.raised, o ∈ g.raised) :
    e.Marks P g :=
  (h.trans (Marks.none hw hr)).congr fun _ => iff_of_eq (or_false _)

theorem Event.Marks.none_trans (hw : f.windows = e.windows) (hr : ∀ o ∈ e.raised, o ∈ f.raised) (h : f.Marks P g) :
    e.Marks P g :=
  ((Marks.none hw hr).trans h).congr fun _ => iff_of_eq (false_or _)

/-- The DIVERGED flag afterwards. -/
theorem Event.Marks.diverged_iff (h : e.Marks P f) (j : WinIdx) :
    f.windows[j].diverged = true ↔
      e.windows[j].diverged = true ∨ (e.windows[j].kind = .owned ∧ P j) := by
  by_cases hp : P j ∧ e.windows[j].kind = .owned
  · rw [h.marked j hp.1 hp.2]
    exact iff_of_true rfl (.inr hp.symm)
  · rw [h.kept j hp]
    exact ⟨.inl, fun hx => hx.resolve_right fun hy => hp ⟨hy.2, hy.1⟩⟩

/-- Nothing of a window but its DIVERGED flag changes. -/
theorem Event.Marks.rest (h : e.Marks P f) (j : WinIdx) :
    { f.windows[j] with diverged := e.windows[j].diverged } = e.windows[j] := by
  by_cases hp : P j ∧ e.windows[j].kind = .owned
  · rw [h.marked j hp.1 hp.2]
  · rw [h.kept j hp]

theorem Event.requestDiverged_marks (e : Event) (i : WinIdx) : e.Marks (fun j => i = j) (e.requestDiverged i) := by
  refine ⟨fun j hj ho => ?_, fun j hn => ?_, fun o ho => ?_, fun j hj ho hd => ?_⟩
  · rw [e.requestDiverged_window i j, if_pos ⟨hj, ho⟩]
  · rw [e.requestDiverged_window i j, if_neg hn]
  · rw [Event.requestDiverged_eq]
    split
    · exact List.mem_append_left _ ho
    · exact ho
  · subst hj
    rw [Event.requestDiverged_eq, if_pos ⟨ho, hd⟩]
    exact List.mem_append_right _ (List.mem_singleton_self _)

theorem Event.requestDivergedAll_marks (e : Event) (is : List WinIdx) :
    e.Marks (fun j => j ∈ is) (e.requestDivergedAll is) := by
  induction is generalizing e with
  | nil => exact (Marks.none rfl fun _ => id).congr fun j => by simp
  | cons i is ih =>
    exact ((e.requestDiverged_marks i).trans (ih (e.requestDiverged i))).congr fun j => by
      rw [List.mem_cons, eq_comm]

/-- A change that is none of the windows' or causes' before requests on several windows. -/
theorem Event.on_requestDivergedAll_marks (e : Event) {f : State → State} (hf : (f e.toState).windows = e.windows)
    (is : List WinIdx) : e.Marks (fun j => j ∈ is) ((e.on f).requestDivergedAll is) :=
  Marks.none_trans (f := e.on f) hf (fun _ => id) (Event.requestDivergedAll_marks _ is)

/-- The demotion of a held write marks its window (R10, R46). -/
theorem Event.demoteUnpublished_marks (e : Event) :
    e.Marks (fun j => e.host.hold = .publishHold ∧ heldWindow e.toState = some j) e.demoteUnpublished := by
  by_cases hh : e.host.hold = .publishHold
  · cases hw : heldWindow e.toState with
    | none =>
      have h : e.Marks (fun _ => False) (e.on (endPublishHold .unpublished none)) := Marks.none rfl fun _ => id
      rw [e.demoteUnpublished_of_none hh hw]
      exact h.congr fun j => by simp
    | some i =>
      have h := Event.on_requestDivergedAll_marks e (f := endPublishHold .unpublished (some i)) rfl [i]
      rw [e.demoteUnpublished_of_window hh hw]
      exact h.congr fun j => by simp [hh, eq_comm]
  · have h : e.Marks (fun _ => False) e := Marks.none rfl fun _ => id
    rw [e.demoteUnpublished_of_ne hh]
    exact h.congr fun j => by simp [hh]

theorem Event.discardPq_marks (e : Event) : e.Marks (fun j => ∃ p ∈ e.pq.entries, p.window = j) e.discardPq :=
  (Event.on_requestDivergedAll_marks e
    (f := fun s => s.withPq { s.pq with class0 := [], class1 := [], class2 := [], class3 := [] }) rfl _).congr
    fun j => by rw [List.mem_map]

theorem Event.discardFlight_marks (e : Event) :
    e.Marks (fun j => ∃ f ∈ e.orig.flight, f.window = j) e.discardFlight :=
  (Event.on_requestDivergedAll_marks e (f := clearFlight) rfl _).congr fun j => by rw [List.mem_map]

end Marks

end Sys2Proof.Machine
end

section
/-! SUPPORT. SOFT_RESET block by block (R185), and the statement about it. -/

namespace Sys2Proof.Machine

section SoftReset
variable {s u : State}

/-! ## The parts of the event -/

/-- Both queues discarded and a held write demoted, with their DIVERGED requests (R36, R55, R100). -/
def queuesDiscarded (e : Event) : Event := e.demoteUnpublished.discardPq.discardFlight

/-- The rest of a soft reset, the Attention Unit last (R185). -/
def softRest (u : State) : State :=
  (softResetNode (softResetLinks (resetSources (voidWaiting (fun _ => true)
    (zeroUpdates (softResetOrigination u)))))).withAttn Attention.reset

theorem softReset_toState (e : Event) : e.softReset.toState = softRest (queuesDiscarded e).toState := rfl

/-- A voiding changes the Apply Queue and the Host Path alone. -/
theorem voidWaiting_eq (which : AqEntry → Bool) (s : State) :
    voidWaiting which s = (s.withAq (voidWaiting which s).aq).withHost (voidWaiting which s).host := by
  unfold voidWaiting
  rcases releaseReadHold_cases (s.withAq { s.aq with
    entries := s.aq.entries.filter fun a => !(a.state = .waiting && which a) }) with ⟨-, -, he⟩ | ⟨-, he⟩ <;> rw [he] <;> rfl

theorem filter_not_waiting (l : List AqEntry) :
    l.filter (fun a => !(a.state = .waiting && true)) = l.filter fun a => a.state = .writing :=
  List.filter_congr fun a _ => by cases a.state <;> rfl

/-- The Host Path and the Apply Queue as the voiding leaves them, and every other block by its row. -/
theorem softRest_eq (u : State) : softRest u =
    { u with
      host := (voidWaiting (fun _ => true) (zeroUpdates (softResetOrigination u))).host
      windows := u.windows.map fun w => { w with updates := 0 }
      orig := { u.orig with announce := none, staleReturns := 0 }
      link := { u.link with orphans := 0 }
      out := { u.out with fifo := [], starvation := 0 }
      sources := Vector.replicate 16 SeqEntry.reset
      aq := { u.aq with entries := u.aq.entries.filter fun a => a.state = .writing }
      node := { u.node with mode := .offline, level := .normal, lif := 0, rtf := 0 }
      attn := Attention.reset } := by
  have haq := voidWaiting_aq (fun _ => true) (zeroUpdates (softResetOrigination u))
  unfold softRest
  rw [voidWaiting_eq, haq, show (zeroUpdates (softResetOrigination u)).aq = u.aq from rfl, filter_not_waiting]
  rfl

/-- A soft reset leaves the Output Arbiter nothing to choose (R77, R100, R159). -/
theorem outputSettled_softRest (hr : u.orig.resend = none) : OutputSettled (softRest u) := by
  intro _ _
  rw [softRest_eq]
  refine ⟨rfl, ?_⟩
  simp [originationOffer, announceOffer, hr, Mode.sends]

/-! ### The Host Path: a read held without an entry at or before its mark is released (R135) -/

theorem softRest_voided (u : State) :
    (voidWaiting (fun _ => true) (zeroUpdates (softResetOrigination u))).aq = (softRest u).aq := by
  rw [softRest_eq, voidWaiting_aq, filter_not_waiting]
  rfl

theorem softRest_voided_host (u : State) :
    (softRest u).host = (voidWaiting (fun _ => true) (zeroUpdates (softResetOrigination u))).host := by
  rw [softRest_eq]

theorem softRest_host_of_ne (h : u.host.hold ≠ .readHold) : (softRest u).host = u.host := by
  rw [softRest_voided_host]
  exact voidWaiting_host_of_ne (s := zeroUpdates (softResetOrigination u)) _ h

theorem softRest_host_kept (h : ∃ a ∈ (softRest u).aq.entries, (u.host.holdMark - a.acc).toNat < 32768) :
    (softRest u).host = u.host := by
  rw [← softRest_voided] at h
  rw [softRest_voided_host]
  exact voidWaiting_host_of_kept (s := zeroUpdates (softResetOrigination u)) _ h

theorem softRest_host_released (hh : u.host.hold = .readHold)
    (h : ∀ a ∈ (softRest u).aq.entries, ¬(u.host.holdMark - a.acc).toNat < 32768) :
    (softRest u).host = { u.host with path := .requesting, hold := .noHold } := by
  rw [← softRest_voided] at h
  rw [softRest_voided_host]
  exact voidWaiting_host_of_released (s := zeroUpdates (softResetOrigination u)) _ hh h

theorem softRest_host_mark (u : State) :
    (softRest u).host.holdMark = u.host.holdMark ∧ (softRest u).host.holdStart = u.host.holdStart := by
  by_cases hh : u.host.hold = .readHold
  · by_cases h : ∃ a ∈ (softRest u).aq.entries, (u.host.holdMark - a.acc).toNat < 32768
    · rw [softRest_host_kept h]
      exact ⟨rfl, rfl⟩
    · push Not at h
      rw [softRest_host_released hh fun a ha => Nat.not_lt.2 (h a ha)]
      exact ⟨rfl, rfl⟩
  · rw [softRest_host_of_ne hh]
    exact ⟨rfl, rfl⟩

/-! ### What the discard leaves -/

theorem queuesDiscarded_pq (h : HostLaw s) : (queuesDiscarded (Event.begin s)).pq = PublishQueue.reset := by
  have hheld : (Event.begin s).demoteUnpublished.pq.held = none := by
    obtain ⟨-, -, -, -, -, hheld, -⟩ := h
    by_cases hh : s.host.hold = .publishHold
    · cases hw : heldWindow s with
      | none => rw [(Event.begin s).demoteUnpublished_of_none hh hw]; rfl
      | some i => rw [(Event.begin s).demoteUnpublished_of_window hh hw, Event.requestDiverged_pq]; rfl
    · rw [(Event.begin s).demoteUnpublished_of_ne hh]
      simpa using mt hheld.1 hh
  rw [queuesDiscarded, Event.discardFlight_pq, Event.discardPq, Event.requestDivergedAll_pq]
  simp only [Event.on_toState, State.withPq_pq, hheld]
  rfl

theorem queuesDiscarded_orig (e : Event) :
    (queuesDiscarded e).orig = { e.orig with flight := [], resend := none, backoff := none } := by
  rw [queuesDiscarded, Event.discardFlight_orig, Event.discardPq_orig, Event.demoteUnpublished_orig]

theorem queuesDiscarded_host (e : Event) : (queuesDiscarded e).host = e.demoteUnpublished.host := by
  rw [queuesDiscarded, Event.discardFlight_host, Event.discardPq_host]

theorem queuesDiscarded_rest (e : Event) :
    (queuesDiscarded e).resetN = e.resetN ∧ (queuesDiscarded e).link = e.link ∧ (queuesDiscarded e).out = e.out ∧
      (queuesDiscarded e).aq = e.aq ∧ (queuesDiscarded e).arb = e.arb ∧ (queuesDiscarded e).node = e.node ∧
      (queuesDiscarded e).mgmt = e.mgmt ∧ (queuesDiscarded e).mem = e.mem ∧ (queuesDiscarded e).moments = e.moments := by
  unfold queuesDiscarded
  exact ⟨by simp, by simp, by simp, by simp, by simp, by simp, by simp, by simp, by simp⟩

/-- The windows of both queues and of the held write are marked (R36, R55, R100). -/
theorem queuesDiscarded_marks (e : Event) : e.Marks (fun j => ((e.host.hold = .publishHold ∧
      heldWindow e.toState = some j) ∨ ∃ p ∈ e.demoteUnpublished.pq.entries, p.window = j) ∨
      ∃ f ∈ e.orig.flight, f.window = j) (queuesDiscarded e) := by
  have h := (e.demoteUnpublished_marks.trans e.demoteUnpublished.discardPq_marks).trans
    e.demoteUnpublished.discardPq.discardFlight_marks
  rwa [Event.discardPq_orig, Event.demoteUnpublished_orig] at h

/-- A demotion leaves the class lists. -/
theorem Event.demoteUnpublished_entries (e : Event) : e.demoteUnpublished.pq.entries = e.pq.entries := by
  by_cases hh : e.host.hold = .publishHold
  · cases hw : heldWindow e.toState with
    | none => rw [e.demoteUnpublished_of_none hh hw]; rfl
    | some i => rw [e.demoteUnpublished_of_window hh hw, Event.requestDiverged_pq]; rfl
  · rw [e.demoteUnpublished_of_ne hh]

/-- The Host Path of a held write after its demotion (R46, R48). -/
theorem Event.demoteUnpublished_host {e : Event} (hh : e.host.hold = .publishHold) :
    e.demoteUnpublished.host = (endPublishHold .unpublished (heldWindow e.toState) e.toState).host := by
  cases hw : heldWindow e.toState with
  | none => rw [e.demoteUnpublished_of_none hh hw]; rfl
  | some i => rw [e.demoteUnpublished_of_window hh hw, Event.requestDiverged_host]; rfl

/-- The window of a held write is that of its held request (R44). -/
theorem HostLaw.heldWindow_iff (h : HostLaw s) (j : WinIdx) :
    (s.host.hold = .publishHold ∧ heldWindow s = some j) ↔ ∃ r ∈ s.pq.held, r.window = j := by
  have hcyc := h.cycle_of_hold
  obtain ⟨-, -, -, -, -, hheld, hwin, -⟩ := h
  constructor
  · rintro ⟨hh, hw⟩
    obtain ⟨r, hr⟩ := Option.isSome_iff_exists.1 (hheld.2 hh)
    obtain ⟨c, hc, -, -⟩ := hcyc (by rw [hh]; decide)
    have hcw := hwin r hr c hc
    rw [heldWindow, hc] at hw
    exact ⟨r, hr, Option.some.inj (hcw.symm.trans hw)⟩
  · rintro ⟨r, hr, rfl⟩
    have hh := hheld.1 (Option.isSome_iff_exists.2 ⟨r, hr⟩)
    obtain ⟨c, hc, -, -⟩ := hcyc (by rw [hh]; decide)
    exact ⟨hh, by rw [heldWindow, hc]; exact hwin r hr c hc⟩

end SoftReset

/-! ## The next state -/

section Next
variable {s : State}

/-- The state from which SOFT_RESET sets the blocks of R185. -/
def softBase (s : State) : State := (queuesDiscarded (Event.begin (setMclk true s))).toState

theorem exec_softReset (hc : Completing s [0x0A]) : exec .softReset s =
    .next ((Event.begin (setMclk true s)).softReset.finish.responding .softReset [] [0x00]) :=
  commandRow_responding hc rfl

theorem softReset_ended (hm : s.moments = [] ∨ ∃ later, s.moments = 0 :: later) :
    Ended (Event.begin (setMclk true s)).softReset (Event.begin (setMclk true s)).softReset.finish := by
  obtain ⟨-, -, -, -, -, -, -, -, hmom⟩ := queuesDiscarded_rest (Event.begin (setMclk true s))
  refine Event.finish_ended ?_ ?_
  · rw [softReset_toState, softRest_eq]
    rw [show (queuesDiscarded (Event.begin (setMclk true s))).moments = s.moments from hmom]
    exact hm
  · rw [softReset_toState]
    exact outputSettled_softRest (by rw [queuesDiscarded_orig])

/-- SOFT_RESET answers OK at the end of its event, whose state is the rest of the reset on its base. -/
theorem softReset_next (hc : Completing s [0x0A]) (hm : s.moments = [] ∨ ∃ later, s.moments = 0 :: later) :
    ∃ (e : Event) (t : State), exec .softReset s = .next (t.responding .softReset [] [0x00]) ∧ Ended e t ∧
      e.toState = softRest (softBase s) ∧ e.raised = [] :=
  ⟨_, _, exec_softReset hc, softReset_ended hm, rfl, rfl⟩

theorem softBase_host (h : s.host.hold ≠ .publishHold) : (softBase s).host = s.host := by
  rw [softBase, queuesDiscarded_host, Event.demoteUnpublished_of_ne _ h]
  rfl

theorem softBase_host_held (h : s.host.hold = .publishHold) :
    (softBase s).host = { s.host with
      path := .requesting, hold := .noHold
      cycle := s.host.cycle.map fun c => { c with cls := .unpublished, window := heldWindow s } } := by
  rw [softBase, queuesDiscarded_host, Event.demoteUnpublished_host (e := Event.begin (setMclk true s)) h]
  rfl

theorem softBase_host_mark (s : State) :
    (softBase s).host.holdMark = s.host.holdMark ∧ (softBase s).host.holdStart = s.host.holdStart := by
  by_cases hh : s.host.hold = .publishHold
  · rw [softBase_host_held hh]
    exact ⟨rfl, rfl⟩
  · rw [softBase_host hh]
    exact ⟨rfl, rfl⟩

theorem softBase_rest (s : State) :
    (softBase s).resetN = s.resetN ∧ (softBase s).link = s.link ∧ (softBase s).out = s.out ∧
      (softBase s).aq = s.aq ∧ (softBase s).arb = s.arb ∧ (softBase s).node = s.node ∧
      (softBase s).mgmt = (setMclk true s).mgmt ∧ (softBase s).mem = s.mem ∧ (softBase s).moments = s.moments := by
  unfold softBase
  exact queuesDiscarded_rest (Event.begin (setMclk true s))

theorem softBase_orig (s : State) :
    (softBase s).orig = { s.orig with flight := [], resend := none, backoff := none } := by
  unfold softBase
  exact queuesDiscarded_orig (Event.begin (setMclk true s))

theorem softBase_pq (h : HostLaw s) : (softBase s).pq = PublishQueue.reset := by
  unfold softBase
  exact queuesDiscarded_pq (s := setMclk true s) h

/-- The windows of both queues and of the held write, as the event marks them. -/
theorem softBase_marks (h : HostLaw s) : ∃ e : Event, e.toState = softBase s ∧
    (Event.begin s).Marks (fun j => (∃ p ∈ s.pq.entries, p.window = j) ∨ (∃ f ∈ s.orig.flight, f.window = j) ∨
      ∃ r ∈ s.pq.held, r.window = j) e := by
  have hm := queuesDiscarded_marks (Event.begin (setMclk true s))
  rw [Event.demoteUnpublished_entries, show (Event.begin (setMclk true s)).pq = s.pq from rfl,
    show (Event.begin (setMclk true s)).orig = s.orig from rfl] at hm
  have hheld (j : WinIdx) : ((Event.begin (setMclk true s)).host.hold = .publishHold ∧
      heldWindow (Event.begin (setMclk true s)).toState = some j) ↔ ∃ r ∈ s.pq.held, r.window = j :=
    HostLaw.heldWindow_iff h j
  refine ⟨queuesDiscarded (Event.begin (setMclk true s)), rfl,
    Event.Marks.none_trans (f := Event.begin (setMclk true s)) rfl (fun _ => id) (hm.congr fun j => ?_)⟩
  rw [hheld, or_assoc]
  exact or_comm.trans or_assoc

end Next

/-- Settles O43: the next state block by block, and the Host Path by the hold it was in. -/
theorem softResetInEveryBlock : Obligations.SoftResetInEveryBlock := by
  intro s hs hlaw _ hc
  obtain ⟨e, t, hexec, hend, hx, hraised⟩ := softReset_next hc (.inl hs.1)
  have hcommit : e.commit = softRest (softBase s) := (e.commit_of_nil hraised).trans hx
  obtain ⟨hres, hlink, hout, haq, harb, hnode, hmgmt, hmem, -⟩ := softBase_rest s
  obtain ⟨m, hm, hmarks⟩ := softBase_marks hlaw
  obtain ⟨p, hp⟩ := arbitrate_host e.toState
  have hmark : t.host.holdMark = s.host.holdMark ∧ t.host.holdStart = s.host.holdStart := by
    obtain ⟨h1, h2⟩ := softRest_host_mark (softBase s)
    obtain ⟨h3, h4⟩ := softBase_host_mark s
    rw [hend.host, hp, hx]
    dsimp only
    exact ⟨h1.trans h3, h2.trans h4⟩
  have hentries : e.aq = { s.aq with entries := s.aq.entries.filter fun a => a.state = .writing } := by
    rw [hx, softRest_eq, haq]
  have harb' : e.arb = s.arb := by rw [hx, softRest_eq, harb]
  have hq : e.arb.cycle = none → e.aq.entries = [] := fun h => by
    rw [harb'] at h
    rw [hentries, (hs.2.2 h).2]
    rfl
  have hkept := (hend.aq_eq hq).trans hentries
  have hwin (i : WinIdx) : t.windows[i] = { m.windows[i] with updates := 0 } := by
    rw [hend.windows, hx, softRest_eq, hm]
    simp
  refine ⟨_, hexec, hend.attn.trans (by rw [hcommit, softRest_eq]),
    responding_mgmt (hend.mgmt.trans (by rw [hcommit, softRest_eq, hmgmt])) _ _ _,
    hend.node.trans (by rw [hx, softRest_eq, hnode]), hend.pq.trans (by rw [hx, softRest_eq, softBase_pq hlaw]),
    hend.orig.trans (by rw [hx, softRest_eq, softBase_orig]), hend.sources.trans (by rw [hx, softRest_eq]),
    hend.link.trans (by rw [hx, softRest_eq, hlink]), hend.out.trans (by rw [hx, softRest_eq, hout]),
    hkept, hend.mem.trans (by rw [hx, softRest_eq, hmem]),
    fun i => ?_, fun i => ?_, fun hh => ?_, fun hh => ⟨fun hex => ?_, fun hn => ?_⟩, fun hh => ?_, ?_, ?_⟩
  · rw [show (State.responding t .softReset [] [0x00]).windows = t.windows from rfl, hwin]
    rw [← show _ = s.windows[i] from hmarks.rest i]
  · rw [show (State.responding t .softReset [] [0x00]).windows = t.windows from rfl, hwin]
    exact hmarks.diverged_iff i
  · obtain ⟨c, hcyc, -, -⟩ := hlaw.cycle_of_hold (by rw [hh]; decide)
    have hhost : e.host = _ := (congrArg State.host hx).trans
      ((softRest_host_of_ne (by rw [softBase_host_held hh]; exact fun h => by cases h)).trans (softBase_host_held hh))
    have hw : heldWindow s = c.window := by rw [heldWindow, hcyc]; rfl
    rw [hcyc, hw] at hhost
    obtain ⟨-, hth, hgrant, hbusy⟩ := hend.posted hq (r := { c with cls := .unpublished }) (by rw [hhost]) (by rw [hhost]; rfl)
      (by rw [hhost]; exact fun h => by cases h)
    rw [hhost, harb'] at hth
    rw [harb'] at hgrant hbusy
    exact ⟨by rw [hcyc]; exact congrArg HostPath.cycle hth, congrArg HostPath.hold hth, congrArg HostPath.path hth, hgrant,
      hbusy⟩
  · have hb := softBase_host (s := s) (by rw [hh]; decide)
    have hhost : e.host = s.host := by
      rw [hx, softRest_host_kept (by rw [hb, ← hx, ← hend.aq_eq hq]; exact hex), hb]
    obtain ⟨hth, -, hta⟩ := hend.quiet hq (by rw [hhost, (hlaw.2.1).2 (by rw [hh]; decide)]; decide)
    exact ⟨hth.trans hhost, hta.trans harb'⟩
  · obtain ⟨c, hcyc, -, -⟩ := hlaw.cycle_of_hold (by rw [hh]; decide)
    have hb := softBase_host (s := s) (by rw [hh]; decide)
    have hhost : e.host = { s.host with path := .requesting, hold := .noHold } := by
      rw [hx, softRest_host_released (by rw [hb, hh]) (by rw [hb, ← hx, ← hend.aq_eq hq]; exact hn), hb]
    have hplain : c = { c with cls := .plain } := by
      obtain ⟨-, -, hsound, hread, -⟩ := hlaw
      rw [← (hsound c hcyc).2.1 (hread hh c hcyc)]
    obtain ⟨-, hth, hgrant, hbusy⟩ := hend.posted hq (r := c) (by rw [hhost]) (by rw [hhost]; exact hcyc)
      (by rw [hhost]; exact fun h => by cases h)
    rw [hhost, harb'] at hth
    rw [harb'] at hgrant hbusy
    refine ⟨(congrArg HostPath.cycle hth).trans ?_, congrArg HostPath.hold hth, congrArg HostPath.path hth, hgrant, hbusy⟩
    rw [hcyc, Option.map_some, ← hplain]
  · have hb := softBase_host (s := s) (by rw [hh]; decide)
    have hhost : e.host = s.host := by
      rw [hx, softRest_host_of_ne (by rw [hb, hh]; decide), hb]
    have hreq : hostRequest e.toState = hostRequest s := by rw [hostRequest, hostRequest, hhost]
    obtain ⟨hth, -, hta⟩ := hend.still fun ha => ⟨hreq.trans (hs.2.2 (harb' ▸ ha)).1, hq ha⟩
    exact ⟨hth.trans hhost, hta.trans harb'⟩
  · exact hmark.1
  · exact hmark.2

end Sys2Proof.Machine
end

section
/-! SUPPORT. The completion of a word cycle of the Apply Queue (R129, R130, R135), and the statement about it. -/

namespace Sys2Proof.Machine

/-! ## The next position (R129) -/

theorem nextPresent_eq_some {m : SpanMask} {j k : Position} :
    nextPresent m j = some k ↔
      j < k ∧ present m k = true ∧ ∀ i : Position, j < i → i < k → present m i = false := by
  have key : ∀ (p0 p1 p2 p3 : Bool) (j k : Fin 4),
      ((allPositions.filter fun i => #v[p0, p1, p2, p3][i]).find? (fun i => j < i)) = some k ↔
        j < k ∧ #v[p0, p1, p2, p3][k] = true ∧ ∀ i : Fin 4, j < i → i < k → #v[p0, p1, p2, p3][i] = false := by
    decide
  have hp : present m = fun i => #v[present m 0, present m 1, present m 2, present m 3][i] := by
    funext i
    fin_cases i <;> rfl
  rw [nextPresent, presentPositions, hp]
  exact key _ _ _ _ j k

theorem nextPresent_eq_none {m : SpanMask} {j : Position} :
    nextPresent m j = none ↔ ∀ k : Position, j < k → present m k = false := by
  rw [nextPresent, List.find?_eq_none]
  simp only [mem_presentPositions, decide_eq_true_eq]
  exact ⟨fun h k hk => Bool.eq_false_iff.2 fun hp => h k hp hk, fun h k hp hk => by simp [h k hk] at hp⟩

section WordDone
variable {e : Event} {a : AqEntry} {rest : List AqEntry}

theorem Event.applyWordDone_next {k : Position} (hq : e.aq.entries = a :: rest) (hw : a.state = .writing)
    (hn : nextPresent a.mask a.next = some k) :
    e.applyWordDone = e.on fun s => s.withAq { s.aq with entries := { a with next := k } :: rest } := by
  simp only [Event.applyWordDone, hq, hw, hn, if_true]

theorem Event.applyWordDone_last (hq : e.aq.entries = a :: rest) (hw : a.state = .writing)
    (hn : nextPresent a.mask a.next = none) :
    e.applyWordDone =
      ((e.on fun s => s.withAq { s.aq with entries := rest }).advanceUpdates a.window).on releaseReadHold := by
  simp only [Event.applyWordDone, hq, hw, hn, if_true]

end WordDone

/-! ## The Apply Queue after a choice (R129, R133) -/

section Choice
variable {s : State}

/-- A grant to the Apply Queue makes its head WRITING; nothing else of its entries changes. -/
theorem arbitrate_entries (hc : s.arb.cycle = none) : (arbitrate s).aq.entries =
    if (arbitrate s).arb.cycle.map MemCycle.grant = some .apply then markHeadWriting s.aq.entries else s.aq.entries := by
  cases hch : arbiterChoice s with
  | none =>
    have h : arbitrate s = s := by simp [arbitrate, hc, hch]
    rw [h, hc]
    rfl
  | some m =>
    have h : arbitrate s = grantCycle m s := by simp [arbitrate, hc, hch]
    rw [h]
    cases hg : m.grant <;> simp [grantCycle, hg]

/-- Without a host request the Host Path stands. -/
theorem arbitrate_host_unrequested (hp : s.host.path ≠ .requesting) : (arbitrate s).host = s.host := by
  cases hc : s.arb.cycle with
  | some m => rw [arbitrate_of_busy s (by simp [hc])]
  | none =>
    rw [arbitrate_unrequested hp hc]
    unfold State.afterApplyGrant
    split <;> rfl

end Choice

/-! ## The completion of the head's word cycle -/

section Word
variable {s : State} {m : MemCycle} {a : AqEntry} {rest : List AqEntry} {k : Position}

theorem exec_wordDone (h : s.arb.cycle = some m) (hg : m.grant = .apply) (sd : Word) :
    exec (.memoryCycleCompletion sd) s = .next (Event.begin (memoryServed m s)).applyWordDone.finish := by
  rw [exec_memoryCycleCompletion, broughtEvent_memoryCycleCompletion, h]
  exact congrArg (fun e : Event => Host.Outcome.next e.finish) ((Event.begin s).memoryDone_of_apply sd hg)

/-- The state in which a completed write cycle goes on. -/
def written (m : MemCycle) (s : State) : State :=
  (s.withArb { s.arb with cycle := none }).withMem (s.mem.writeWord m.word m.lanes m.data)

theorem memoryServed_write (hd : m.dir = .write) : memoryServed m s = written m s := by
  rw [memoryServed, hd]
  rfl

/-- The head removed and its window's update counted, before a read is released (R130). -/
def headRemoved (m : MemCycle) (a : AqEntry) (rest : List AqEntry) (s : State) : State :=
  ((written m s).withAq { s.aq with entries := rest }).withWindows (counted a.window s)

theorem wordDone_next (hd : m.dir = .write) (hq : s.aq.entries = a :: rest) (hw : a.state = .writing)
    (hn : nextPresent a.mask a.next = some k) : (Event.begin (memoryServed m s)).applyWordDone =
      Event.begin ((written m s).withAq { s.aq with entries := { a with next := k } :: rest }) := by
  rw [memoryServed_write hd]
  exact Event.applyWordDone_next (e := Event.begin (written m s)) hq hw hn

theorem wordDone_last (hd : m.dir = .write) (hq : s.aq.entries = a :: rest) (hw : a.state = .writing)
    (hn : nextPresent a.mask a.next = none) : (Event.begin (memoryServed m s)).applyWordDone =
      Event.begin (releaseReadHold (headRemoved m a rest s)) := by
  rw [memoryServed_write hd]
  exact Event.applyWordDone_last (e := Event.begin (written m s)) hq hw hn

/-- A release changes the Host Path alone. -/
theorem releaseReadHold_eq (s : State) : releaseReadHold s = s.withHost (releaseReadHold s).host := by
  rcases releaseReadHold_cases s with ⟨-, -, he⟩ | ⟨-, he⟩ <;> rw [he] <;> rfl

theorem outputSettled_headRemoved (h : OutputSettled s) : OutputSettled (releaseReadHold (headRemoved m a rest s)) := by
  rw [releaseReadHold_eq]
  exact h.congr rfl rfl rfl

/-- A read with an entry at or before its mark among the rest stays held (R135). -/
theorem headRemoved_host_kept (h : ∃ b ∈ rest, (s.host.holdMark - b.acc).toNat < 32768) :
    releaseReadHold (headRemoved m a rest s) = headRemoved m a rest s := by
  rcases releaseReadHold_cases (headRemoved m a rest s) with ⟨-, hn, -⟩ | ⟨-, he⟩
  · obtain ⟨b, hb, hlt⟩ := h
    exact absurd hlt (hn b hb)
  · exact he

theorem headRemoved_host_released (hh : s.host.hold = .readHold)
    (h : ∀ b ∈ rest, ¬(s.host.holdMark - b.acc).toNat < 32768) :
    releaseReadHold (headRemoved m a rest s) =
      (headRemoved m a rest s).withHost { s.host with path := .requesting, hold := .noHold } := by
  rcases releaseReadHold_cases (headRemoved m a rest s) with ⟨-, -, he⟩ | ⟨hn, -⟩
  · exact he
  · exact absurd ⟨hh, h⟩ hn

/-- The end of a word cycle that leaves the entry at the head (R129). -/
theorem word_goes_on {t : State} (hw : a.state = .writing)
    (hend : Ended (Event.begin ((written m s).withAq { s.aq with entries := { a with next := k } :: rest })) t) :
    t.aq.entries = { a with next := k } :: rest ∧ t.windows = s.windows ∧ t.host.hold = s.host.hold := by
  obtain ⟨p, hp⟩ := arbitrate_host ((written m s).withAq { s.aq with entries := { a with next := k } :: rest })
  refine ⟨?_, hend.windows, by rw [hend.host]; exact (congrArg HostPath.hold hp).trans rfl⟩
  rw [hend.aq, Event.begin_toState, arbitrate_entries rfl]
  have hmark : markHeadWriting ({ a with next := k } :: rest) = { a with next := k } :: rest := by
    rw [markHeadWriting, ← hw]
  exact (ite_congr rfl (fun _ => hmark) fun _ => rfl).trans (ite_self _)

/-- The end of a word cycle that removes the head (R130, R133, R135). -/
theorem word_ends {t : State} (hlaw : HostLaw s) (hlast : s.arb.lastGrant = .apply)
    (hend : Ended (Event.begin (releaseReadHold (headRemoved m a rest s))) t) :
    t.windows = counted a.window s ∧
      t.aq.entries = (if t.arb.cycle.map MemCycle.grant = some .apply then markHeadWriting rest else rest) ∧
      (s.host.hold = .readHold →
        ((∃ b ∈ rest, (s.host.holdMark - b.acc).toNat < 32768) → t.host = s.host) ∧
        ((∀ b ∈ rest, ¬(s.host.holdMark - b.acc).toNat < 32768) →
          t.host = { s.host with path := .memory, hold := .noHold } ∧
          t.arb.cycle.map MemCycle.grant = some .host)) := by
  have hrel := releaseReadHold_eq (headRemoved m a rest s)
  refine ⟨hend.windows.trans (by rw [Event.begin_toState, hrel]; rfl), ?_, fun hh => ⟨fun hk => ?_, fun hn => ?_⟩⟩
  · rw [hend.aq, hend.arb, Event.begin_toState, arbitrate_entries (by rw [hrel]; rfl), releaseReadHold_aq]
    rfl
  · have hp : (headRemoved m a rest s).host.path ≠ .requesting := by
      show s.host.path ≠ .requesting
      rw [hlaw.2.1.2 (by rw [hh]; decide)]
      decide
    rw [hend.host, Event.begin_toState, headRemoved_host_kept hk, arbitrate_host_unrequested hp]
    rfl
  · obtain ⟨c, hcyc, -, -⟩ := hlaw.cycle_of_hold (by rw [hh]; decide)
    have hgrant := arbitrate_host_granted (s := (headRemoved m a rest s).withHost
      { s.host with path := .requesting, hold := .noHold }) rfl (r := c) rfl hcyc (fun h => by cases h) (.inr hlast)
    rw [hend.host, hend.arb, Event.begin_toState, headRemoved_host_released hh hn, hgrant]
    exact ⟨rfl, rfl⟩

end Word

section Voided
variable {s : State} {m : MemCycle} {a : AqEntry} {rest : List AqEntry}

/-- The state a completion leaves to a voiding of the same moment (assumption 25). -/
def leftToVoiding (m : MemCycle) (a : AqEntry) (rest : List AqEntry) (s : State) : State :=
  (headRemoved m a rest s).withMoments [0]

/-- A completion taken first releases nothing while an entry is left at or before the mark (R135, R136). -/
theorem exec_wordDone_shared (hc : s.arb.cycle = some m) (hg : m.grant = .apply) (hd : m.dir = .write)
    (hq : s.aq.entries = a :: rest) (hw : a.state = .writing) (hn : nextPresent a.mask a.next = none)
    (hk : ∃ b ∈ rest, (s.host.holdMark - b.acc).toNat < 32768) (sd : Word) :
    exec (.memoryCycleCompletion sd) (s.withMoments [1]) = .next (leftToVoiding m a rest s) := by
  rw [exec_wordDone (s := s.withMoments [1]) hc hg, wordDone_last (s := s.withMoments [1]) hd hq hw hn,
    headRemoved_host_kept (s := s.withMoments [1]) hk, Event.finish_of_shared (Event.begin _) rfl,
    Event.commit_of_nil _ rfl]
  rfl

/-- A released read is served next, the last grant being APPLY (R133, R135). -/
theorem served_next {x : State} (hlaw : HostLaw s) (hh : s.host.hold = .readHold) (hlast : s.arb.lastGrant = .apply)
    (hhost : x.host = { s.host with path := .requesting, hold := .noHold }) (harb : x.arb = { s.arb with cycle := none }) :
    (arbitrate x).host = { s.host with path := .memory, hold := .noHold } ∧
      (arbitrate x).arb.cycle.map MemCycle.grant = some .host ∧ (arbitrate x).aq = x.aq := by
  obtain ⟨c, hcyc, -, -⟩ := hlaw.cycle_of_hold (by rw [hh]; decide)
  rw [arbitrate_host_granted (s := x) (by rw [harb]) (r := c) (by rw [hhost]) (by rw [hhost]; exact hcyc)
    (by rw [hhost]; exact fun h => by cases h) (.inr (by rw [harb]; exact hlast))]
  exact ⟨by rw [State.withHost_host, hhost], rfl, rfl⟩

theorem waiting_of_queueLaw (h : QueueLaw s) (hq : s.aq.entries = a :: rest) : ∀ b ∈ rest, b.state = .waiting := by
  obtain ⟨-, -, -, -, -, -, htail⟩ := h
  rw [hq] at htail
  exact htail

theorem outputSettled_leftToVoiding (h : OutputSettled s) : OutputSettled (setMclk true (leftToVoiding m a rest s)) :=
  h.congr rfl rfl rfl

/-- DISABLE_WINDOW voids the last entries at or before the mark, and the read is served (R32, R135). -/
theorem disabled_serves (hlaw : HostLaw s) (ho : OutputSettled s) (hwait : ∀ b ∈ rest, b.state = .waiting)
    (hlast : s.arb.lastGrant = .apply) (hh : s.host.hold = .readHold) {n : Byte} {i : WinIdx}
    (hc : Completing s [0x13, n]) (hn : n.toNat = i.val) (he : s.windows[i].enabled = true)
    (hk : s.windows[i].kind = .mirror) (hall : ∀ b ∈ rest, (s.host.holdMark - b.acc).toNat < 32768 → b.window = i) :
    ∃ t, exec (.disableWindow n) (leftToVoiding m a rest s) = .next t ∧
      (t.host = { s.host with path := .memory, hold := .noHold } ∧ t.arb.cycle.map MemCycle.grant = some .host ∧
        t.mem = s.mem.writeWord m.word m.lanes m.data) ∧
      t.aq.entries = rest.filter (fun b => b.window ≠ i) ∧
      t.windows[i].enabled = false ∧ t.windows[a.window].updates = s.windows[a.window].updates + 1 := by
  have hwin (j : WinIdx) : (leftToVoiding m a rest s).windows[j] =
      if a.window = j then { s.windows[a.window] with updates := s.windows[a.window].updates + 1 } else s.windows[j] :=
    setWindow_getElem s a.window j _
  have hei : (leftToVoiding m a rest s).windows[i].enabled = true := by
    rw [hwin]
    split
    next h => subst h; exact he
    next => exact he
  have hki : (leftToVoiding m a rest s).windows[i].kind = .mirror := by
    rw [hwin]
    split
    next h => subst h; exact hk
    next => exact hk
  obtain ⟨p, q, hd⟩ := disabled_eq i (setMclk true (leftToVoiding m a rest s))
  have hleft : entriesLeft i (setMclk true (leftToVoiding m a rest s)) = rest.filter fun b => b.window ≠ i := by
    refine List.filter_congr fun b hb => ?_
    rw [show (setMclk true (leftToVoiding m a rest s)).windows = (leftToVoiding m a rest s).windows from rfl, hki,
      hwait b hb]
    simp
  have haq : (disabled i (setMclk true (leftToVoiding m a rest s))).aq.entries = rest.filter fun b => b.window ≠ i := by
    rw [disabled_aq, ← hleft]
  have hhost := disabled_host_of_released (s := setMclk true (leftToVoiding m a rest s)) hh hki (by
    rw [haq]
    intro b hb hlt
    obtain ⟨hb, hw⟩ := List.mem_filter.1 hb
    exact of_decide_eq_true hw (hall b hb hlt))
  have hend := Event.finish_ended (e := Event.begin (disabled i (setMclk true (leftToVoiding m a rest s))))
    (.inr ⟨[], by rw [hd]; rfl⟩) (outputSettled_disabled (outputSettled_leftToVoiding ho))
  obtain ⟨hsh, hsg, hsq⟩ := served_next hlaw hh hlast hhost (by rw [hd]; rfl)
  have hset := hend.windows.trans (show _ = ((setMclk true (leftToVoiding m a rest s)).setWindow i
    { (leftToVoiding m a rest s).windows[i] with enabled := false }).windows by rw [Event.begin_toState, hd]; rfl)
  have hget (j : WinIdx) := (congrArg (fun ws : Vector Window 16 => ws[j]) hset).trans (setWindow_getElem _ i j _)
  refine ⟨_, exec_disableWindow hc hn hei, ⟨hend.host.trans hsh, (congrArg (fun x : MemoryArbiter => x.cycle.map MemCycle.grant) hend.arb).trans hsg,
    hend.mem.trans (by rw [Event.begin_toState, hd]; rfl)⟩, ?_, ?_, ?_⟩
  · exact (congrArg ApplyQueue.entries (hend.aq.trans hsq)).trans haq
  · refine (congrArg Window.enabled (hget i)).trans ?_
    rw [if_pos rfl]
  · refine (congrArg Window.updates (hget a.window)).trans ?_
    split
    next h => rw [hwin, if_pos h.symm]
    next => exact congrArg Window.updates ((hwin a.window).trans (if_pos rfl))

/-- SOFT_RESET voids every other entry, and the read is served (R135, R139). -/
theorem softReset_serves (hlaw : HostLaw s) (hwait : ∀ b ∈ rest, b.state = .waiting)
    (hlast : s.arb.lastGrant = .apply) (hh : s.host.hold = .readHold) (hc : Completing s [0x0A]) :
    ∃ t, exec .softReset (leftToVoiding m a rest s) = .next t ∧
      (t.host = { s.host with path := .memory, hold := .noHold } ∧ t.arb.cycle.map MemCycle.grant = some .host ∧
        t.mem = s.mem.writeWord m.word m.lanes m.data) ∧
      t.aq.entries = [] ∧ ∀ i : WinIdx, t.windows[i].updates = 0 := by
  obtain ⟨e, t, hexec, hend, hx, -⟩ := softReset_next (s := leftToVoiding m a rest s) hc (.inr ⟨[], rfl⟩)
  obtain ⟨-, -, -, haq, harb, -, -, hmem, -⟩ := softBase_rest (leftToVoiding m a rest s)
  have hb : (softBase (leftToVoiding m a rest s)).host = s.host :=
    softBase_host (s := leftToVoiding m a rest s) (by
      show s.host.hold ≠ .publishHold
      rw [hh]; decide)
  have hnil : (softRest (softBase (leftToVoiding m a rest s))).aq.entries = [] := by
    rw [softRest_eq, haq]
    refine List.filter_eq_nil_iff.2 fun b hb => ?_
    rw [hwait b hb]
    decide
  have hhost : e.host = { s.host with path := .requesting, hold := .noHold } := by
    rw [hx, softRest_host_released (by rw [hb, hh]) (by rw [hnil]; exact fun _ h => by cases h), hb]
  obtain ⟨hsh, hsg, hsq⟩ := served_next (x := e.toState) hlaw hh hlast hhost (by rw [hx, softRest_eq, harb]; rfl)
  refine ⟨_, hexec, ⟨hend.host.trans hsh, (congrArg (fun x : MemoryArbiter => x.cycle.map MemCycle.grant) hend.arb).trans hsg,
    hend.mem.trans (by rw [hx, softRest_eq, hmem]; rfl)⟩, ?_, fun i => ?_⟩
  · exact (congrArg ApplyQueue.entries (hend.aq.trans hsq)).trans (by rw [hx, hnil])
  · have hw := hend.windows
    rw [hx, softRest_eq] at hw
    refine (congrArg (fun ws : Vector Window 16 => ws[i].updates) hw).trans ?_
    simp

end Voided

/-- Settles O14: the two ends of a word cycle, and a voiding of the same moment. -/
theorem applyWordCycleCompletes : Obligations.ApplyWordCycleCompletes := by
  refine ⟨fun sd m a rest s hs hmem hlaw hc hg hd hlast hq hw => ?_, ?_⟩
  · have lanes (lane : Fin 4) := Memory.readByte_writeWord_lane s.mem m.word m.lanes m.data lane hmem
    have others (x : Nat) := Memory.readByte_writeWord_ne s.mem m.word m.lanes m.data x
    have ho : OutputSettled s := hs.2.1
    cases hn : nextPresent a.mask a.next with
    | some k =>
      obtain ⟨hlt, hpk, hlow⟩ := nextPresent_eq_some.1 hn
      have hend := Event.finish_ended
        (e := Event.begin ((written m s).withAq { s.aq with entries := { a with next := k } :: rest })) (.inl hs.1)
        (ho.congr rfl rfl rfl)
      refine ⟨_, (exec_wordDone hc hg sd).trans (by rw [wordDone_next hd hq hw hn]),
        ⟨hend.orig, hend.link, hend.out, hend.sources, hend.node⟩, hend.pq,
        hend.attn.trans (by rw [Event.commit_of_nil _ rfl]; rfl), hend.mgmt.trans (by rw [Event.commit_of_nil _ rfl]; rfl),
        fun lane => by rw [hend.mem]; exact lanes lane, fun x hx => by rw [hend.mem]; exact others x hx,
        fun k' hlt' hp' hlow' => ?_, fun hnone => ?_⟩
      · obtain rfl : k' = k := Option.some.inj ((nextPresent_eq_some.2 ⟨hlt', hp', hlow'⟩).symm.trans hn)
        exact word_goes_on hw hend
      · exact absurd hpk (by rw [hnone k hlt]; decide)
    | none =>
      have hnone := nextPresent_eq_none.1 hn
      have hrel := releaseReadHold_eq (headRemoved m a rest s)
      have hend := Event.finish_ended (e := Event.begin (releaseReadHold (headRemoved m a rest s)))
        (.inl (by rw [hrel]; exact hs.1)) (outputSettled_headRemoved ho)
      have hmemt := hend.mem.trans (show _ = s.mem.writeWord m.word m.lanes m.data by rw [Event.begin_toState, hrel]; rfl)
      refine ⟨_, (exec_wordDone hc hg sd).trans (by rw [wordDone_last hd hq hw hn]),
        ⟨hend.orig.trans (by rw [Event.begin_toState, hrel]; rfl), hend.link.trans (by rw [Event.begin_toState, hrel]; rfl),
          hend.out.trans (by rw [Event.begin_toState, hrel]; rfl),
          hend.sources.trans (by rw [Event.begin_toState, hrel]; rfl),
          hend.node.trans (by rw [Event.begin_toState, hrel]; rfl)⟩, hend.pq.trans (by rw [Event.begin_toState, hrel]; rfl),
        hend.attn.trans (by rw [Event.commit_of_nil _ rfl, Event.begin_toState, hrel]; rfl),
        hend.mgmt.trans (by rw [Event.commit_of_nil _ rfl, Event.begin_toState, hrel]; rfl),
        fun lane => by rw [hmemt]; exact lanes lane, fun x hx => by rw [hmemt]; exact others x hx,
        fun k' hlt' hp' _ => ?_, fun _ => word_ends hlaw hlast hend⟩
      exact absurd hp' (by rw [hnone k' hlt']; decide)
  · intro sd m a rest s hs hlaw hqueue hc hg hd hlast hq hw hnone hh hk
    have hwait := waiting_of_queueLaw hqueue hq
    exact ⟨_, exec_wordDone_shared hc hg hd hq hw (nextPresent_eq_none.2 hnone) hk sd, rfl, rfl, rfl,
      fun n i hcn hn he hkind hall => disabled_serves hlaw hs.2.1 hwait hlast hh hcn hn he hkind hall,
      fun hcn => softReset_serves hlaw hwait hlast hh hcn⟩

end Sys2Proof.Machine
end

section
/-! SUPPORT. The hard reset and its release (R16, R157, R158), START (R144), and the statements about them. -/

namespace Sys2Proof.Machine

/-! ## The release of RESET_N (R157) -/

section Release
variable {s : State}

theorem Event.acceptPresented_of_refused {e : Event} (h : canAccept e.toState = false) : e.acceptPresented = e := by
  unfold Event.acceptPresented
  split
  · exact if_neg (by simp [h])
  · rfl

theorem exec_release (hr : s.resetN = false) (straps : NodeId) : exec (.resetRelease straps) s =
    .next (Event.begin (leaveHardReset straps s)).acceptPresented.finish :=
  if_neg (by simp [hr])

/-- After the rise of RESET_N neither arbiter has anything to choose. -/
theorem settled_leaveHardReset (hs : Settled s) (h : ResetHeld s) (hr : s.resetN = false) (straps : NodeId) :
    Settled (leaveHardReset straps s) := by
  obtain ⟨-, -, -, -, -, -, -, horig, -, hout, -, -, hnode, -⟩ := h hr
  have hmode : s.node.mode = .offline := by rw [hnode]; rfl
  refine ⟨hs.1, fun _ _ => ⟨?_, ?_⟩, hs.2.2⟩
  · show s.out.fifo = []
    rw [hout]
    rfl
  · simp [originationOffer, announceOffer, leaveHardReset, horig, Origination.reset, hmode, Mode.sends]

end Release

/-- Settles O42: the released state has nothing to choose, and the rise accepts what the acceptance row would. -/
theorem resetReleaseSamplesTheNodeId : Obligations.ResetReleaseSamplesTheNodeId := by
  intro straps s hs hheld hr
  refine ⟨fun hn => ?_, fun hnew hfree c hc => ?_⟩
  · have hrefused : (Event.begin (leaveHardReset straps s)).acceptPresented =
        Event.begin (leaveHardReset straps s) := by
      rcases hn with hn | hn | hn
      · exact Event.acceptPresented_of_none (.inl hn)
      · exact Event.acceptPresented_of_none (.inr (.inl hn))
      · exact Event.acceptPresented_of_refused (by simp [canAccept, leaveHardReset, Event.begin, hn])
    rw [exec_release hr, hrefused, Event.finish_of_settled_nil _ (settled_leaveHardReset hs hheld hr straps) rfl]
    rfl
  · have hpres : presentCycle c (leaveHardReset straps s) = leaveHardReset straps s := presentCycle_of_presented hc
    have hon : Event.begin (leaveHardReset straps s) =
        (Event.begin (leaveHardReset straps s)).on (presentCycle ⟨c.addr, c.dir, c.lanes, c.data⟩) :=
      congrArg Event.begin hpres.symm
    rw [exec_release hr, hon]
    rfl

/-! ## The fall of RESET_N (R16, R158) -/

section Fall
variable {s : State}

theorem HostPath.hardReset_of_noHold {h : HostPath} (hh : h.hold = .noHold) : h.hardReset =
    { h with holdMark := 0, holdStart := 0, refusedDelay := false, herr := false } := by
  simp [HostPath.hardReset, hh]

/-- A cycle that is not in MEMORY goes on with its request, a held write as PLAIN. -/
theorem HostLaw.hardReset_requests (h : HostLaw s) {c : CycleRecord} (hc : s.host.cycle = some c)
    (hm : s.host.path ≠ .memory) :
    s.host.hardReset.path = .requesting ∧ s.host.hardReset.hold = .noHold ∧ s.host.hardReset.cycle =
      some (if s.host.hold = .publishHold then { c with cls := .plain, window := none } else c) := by
  obtain ⟨hfree, hhold, -⟩ := h
  cases hh : s.host.hold with
  | readHold => simp [HostPath.hardReset, hh, hc]
  | publishHold => simp [HostPath.hardReset, hh, hc]
  | noHold =>
    have hp : s.host.path = .requesting := by
      cases hp : s.host.path with
      | free => simp [hc] at hfree; exact absurd hp hfree
      | holding => simp [hp, hh] at hhold
      | requesting => rfl
      | memory => exact absurd hp hm
    simp [HostPath.hardReset_of_noHold hh, hp, hh, hc]

theorem hardReset_next (hm : s.moments = []) (hr : s.resetN = true) :
    ∃ t, exec .hardReset s = .next t ∧ t = arbitrate (enterHardReset s) := by
  refine ⟨_, if_pos hr, ?_⟩
  have hq : OutputSettled ((Event.begin s).on enterHardReset).toState :=
    fun _ h => nomatch (show OutboundState.quiet = .running from h)
  rw [Event.finish_of_output hm hq, Event.commit_of_nil _ rfl]
  rfl

end Fall

/-- Settles O41: every block stands at its reset value but the Host Path, whose kept cycle has its request granted at a
free port. -/
theorem hardResetSetsEveryBlock : Obligations.HardResetSetsEveryBlock := by
  intro s hlaw hm hr
  obtain ⟨t, hexec, rfl⟩ := hardReset_next hm hr
  have hheld := exec_resetHeld (fun h => by rw [hr] at h; cases h) hexec
  have hlow : (arbitrate (enterHardReset s)).resetN = false := arbitrate_resetN _
  have hattn : (arbitrate (enterHardReset s)).attn = Attention.reset := arbitrate_attn _
  refine ⟨_, hexec, hlow, hheld, arbitrate_mem _, ?_, ?_, ?_, ?_, fun hn => ?_, fun hp => ?_, fun c hc hp => ?_⟩
  · rw [arbitrate_node]; rfl
  · rw [arbitrate_pending]; rfl
  · rw [State.attnLow, hattn]; rfl
  · rw [State.hrdy, hlow]; rfl
  · obtain ⟨hfree, hhold, -⟩ := hlaw
    have hp := hfree.2 hn
    have hh : s.host.hold = .noHold := by simpa [hp] using hhold
    have hpath : (enterHardReset s).host.path = .free := by
      simp [enterHardReset, HostPath.hardReset_of_noHold hh, hp]
    rw [arbitrate_quiet (fun _ => rfl) (by rw [hpath]; decide)]
    exact ⟨hpath, by simp [enterHardReset, HostPath.hardReset_of_noHold hh, hn]⟩
  · obtain ⟨-, hhold, -, -, -, -, -, hport, -⟩ := hlaw
    have hh : s.host.hold = .noHold := by simpa [hp] using hhold
    have hpath : (enterHardReset s).host.path = .memory := by
      simp [enterHardReset, HostPath.hardReset_of_noHold hh, hp]
    rw [arbitrate_quiet (fun _ => rfl) (by rw [hpath]; decide)]
    exact ⟨hpath, by simp [enterHardReset, HostPath.hardReset_of_noHold hh], rfl⟩
  · obtain ⟨hpath, hhold, hcyc⟩ := hlaw.hardReset_requests hc hp
    cases ha : s.arb.cycle with
    | some m =>
      rw [arbitrate_of_busy (enterHardReset s) (by simp [enterHardReset, ha])]
      exact ⟨hcyc, fun _ => ⟨hpath, ha⟩, fun h => nomatch h⟩
    | none =>
      rw [arbitrate_host_granted (s := enterHardReset s) (r := _) ha hpath hcyc
        (by rw [show (enterHardReset s).host.hold = .noHold from hhold]; decide) (.inl rfl)]
      refine ⟨hcyc, fun h => (nomatch h), fun _ => ⟨rfl, ?_⟩⟩
      split <;> rfl

/-! ## START (R144) -/

section Start
variable {s : State}

/-- The record START creates. -/
def firstAnnounce (s : State) : AnnounceRecord :=
  { startSeq := s.orig.nextSeq, retry := 0, state := .awaitingSend, departure := 0 }

theorem exec_start (hc : Completing s [0x30]) (hm : s.node.mode = .offline) (hl : s.link.inbound = .up) :
    exec .start s =
      .next ((Event.begin (startNode (setMclk true s))).finish.responding .start [] [0x00]) := by
  refine commandRow_responding hc ?_
  show startEffect (setMclk true s) = _
  rw [startEffect, if_neg (by simpa [setMclk] using hm), if_neg (by simpa [setMclk] using hl)]
  rfl

/-- START leaves the Memory Arbiter nothing to choose. -/
theorem arbitrate_started (hs : Settled s) {t : State} (hh : t.host = s.host) (hq : t.aq = s.aq) (ha : t.arb = s.arb) :
    arbitrate t = t :=
  arbitrate_still fun h => by
    rw [hostRequest, hh, hq]
    exact hs.2.2 (by rw [← ha]; exact h)

end Start

/-- Settles O39: the record is created, and an idle link takes it at once. -/
theorem startJoinsTheRing : Obligations.StartJoinsTheRing := by
  intro s hs hmode hlink hc
  refine ⟨fun hm => commandRow_answered hc ?_, fun hm hl => commandRow_answered hc ?_, fun hm hl => ⟨fun hb => ?_, fun hi => ?_⟩⟩
  · show startEffect (setMclk true s) = _
    rw [startEffect, if_pos (by simpa [setMclk] using hm)]
    rfl
  · show startEffect (setMclk true s) = _
    rw [startEffect, if_neg (by simpa [setMclk] using hm), if_pos (by simpa [setMclk] using hl)]
    rfl
  · have hb' : OutputSettled (startNode (setMclk true s)) := .of_busy hb
    rw [exec_start hc hm hl, Event.finish_of_output (e := Event.begin (startNode (setMclk true s))) hs.1 hb',
      Event.commit_of_nil _ rfl, arbitrate_started (t := (Event.begin (startNode (setMclk true s))).toState) hs rfl rfl rfl]
    rfl
  · have hres : s.resetN = true := hc.1
    obtain ⟨-, -, -, -, -, -, -, hquiet, -⟩ := hlink
    have hrun : s.link.outbound = .running := by
      cases h : s.link.outbound with
      | running => rfl
      | quiet => rw [hquiet.1 h] at hres; cases hres
    obtain ⟨hfifo, -⟩ := hs.2.1 hi hrun
    rw [exec_start hc hm hl, Event.finish_of_alone _ hs.1, Event.commit_of_nil _ rfl, choices,
      Event.chooseOutput_of_offer (o := .announce (firstAnnounce s)) hi hrun hfifo rfl,
      arbitrate_started (t := (Event.sendOffer (Event.begin (Event.begin (startNode (setMclk true s))).toState)
        (.announce (firstAnnounce s))).toState) hs rfl rfl rfl]
    rfl

end Sys2Proof.Machine
end

section
/-! SUPPORT. Fault reports: what a report does to the counters, the level and the queues (R149 to R152, R154), and the
statement about it. -/

namespace Sys2Proof.Machine

/-! ## The level (R152) -/

/-- The level the rows of R152 set. -/
def NodeControl.levelAfter (n : NodeControl) : Level :=
  if n.level ≠ .isolated ∧ (240 ≤ n.lif.toNat ∨ 240 ≤ n.rtf.toNat) then .isolated
  else if n.level = .normal ∧ (96 ≤ n.lif.toNat ∨ 96 ≤ n.rtf.toNat) then .degraded
  else if n.level = .degraded ∧ n.lif.toNat ≤ 63 ∧ n.rtf.toNat ≤ 63 then .normal
  else n.level

section Level
variable {e : Event}

theorem Event.evaluateLevel_isolating (hl : e.node.level ≠ .isolated) (h : e.node.levelAfter = .isolated) :
    e.evaluateLevel = e.isolate := by
  refine if_pos ?_
  by_contra hn
  rw [NodeControl.levelAfter, if_neg hn] at h
  split at h
  · cases h
  · split at h
    · cases h
    · exact hl h

/-- Short of isolation the evaluation sets the level, with LEVEL_CHANGE when it changes. -/
theorem Event.evaluateLevel_kept (h : e.node.level = .isolated ∨ e.node.levelAfter ≠ .isolated) :
    e.evaluateLevel.toState = e.toState.withNode { e.node with level := e.node.levelAfter } ∧
      e.evaluateLevel.raised = e.raised ++ if e.node.levelAfter = e.node.level then [] else [.levelChange] := by
  have hn : ¬(e.node.level ≠ .isolated ∧ (240 ≤ e.node.lif.toNat ∨ 240 ≤ e.node.rtf.toNat)) := fun hn =>
    h.elim hn.1 fun h => h (if_pos hn)
  unfold Event.evaluateLevel NodeControl.levelAfter
  dsimp only [Config.isolateAt, Config.degradeAt, Config.restoreAt]
  rw [if_neg hn, if_neg hn]
  split
  next h => exact ⟨rfl, by rw [h.1]; rfl⟩
  next =>
    split
    next h => exact ⟨rfl, by rw [h.1]; rfl⟩
    next => exact ⟨rfl, by simp⟩

end Level

/-! ## Isolation (R154) -/

section Isolation
variable {e : Event}

theorem Event.isolate_node (e : Event) : e.isolate.node = { e.node with level := .isolated, mode := .offline } := by
  simp [Event.isolate, Event.on, setLevel, setMode, abandonAnnounce, State.withNode, Event.raise]

theorem Event.isolate_orig (e : Event) :
    e.isolate.orig = { e.orig with flight := [], resend := none, backoff := none, announce := none } := by
  simp [Event.isolate, Event.on, setLevel, setMode, abandonAnnounce, State.withNode, State.withOrig, Event.raise]

/-- The host cycle after a held write has been demoted to UNPUBLISHED. -/
theorem Event.demoteUnpublished_cycle (h : e.host.hold = .publishHold) : e.demoteUnpublished.host =
    { e.host with path := .requesting, hold := .noHold
                  cycle := e.host.cycle.map fun c => { c with cls := .unpublished } } := by
  rw [Event.demoteUnpublished_host h]
  show ({ e.host with
    path := .requesting, hold := .noHold
    cycle := e.host.cycle.map fun c => { c with cls := .unpublished, window := heldWindow e.toState } } : HostPath) = _
  cases hc : e.host.cycle <;> simp [heldWindow, hc]

/-- The event in which isolation has set the mode and begins to empty the blocks. -/
def isolating (e : Event) : Event := ((e.on (setLevel .isolated)).raise .levelChange).on (setMode .offline)

theorem Event.isolate_eq (e : Event) :
    e.isolate = ((isolating e).discardPq.demoteUnpublished.discardFlight).on abandonAnnounce := rfl

theorem Event.isolate_host (e : Event) : e.isolate.host =
    if e.host.hold = .publishHold then
      { e.host with path := .requesting, hold := .noHold
                    cycle := e.host.cycle.map fun c => { c with cls := .unpublished } }
    else e.host := by
  have h1 : (isolating e).discardPq.host = e.host := by
    simp [isolating, Event.on, setLevel, setMode, State.withNode, Event.raise]
  have h2 : e.isolate.host = (isolating e).discardPq.demoteUnpublished.host := by
    rw [Event.isolate_eq]
    simp [Event.on, abandonAnnounce, State.withOrig]
  rw [h2]
  split
  next hh => rw [Event.demoteUnpublished_cycle (h1 ▸ hh), h1]
  next hh => rw [Event.demoteUnpublished_of_ne _ (h1 ▸ hh), h1]

theorem PublishQueue.total_of_entries {p q : PublishQueue} (h : p.entries = q.entries) : p.total = q.total := by
  have hl : p.entries.length = q.entries.length := congrArg _ h
  simp only [PublishQueue.entries, List.length_append] at hl
  simpa only [PublishQueue.total, PublishQueue.low] using hl

theorem Event.isolate_pq_total (e : Event) : e.isolate.pq.total = 0 := by
  have h : e.isolate.pq = (isolating e).discardPq.demoteUnpublished.pq := by
    rw [Event.isolate_eq]
    simp [Event.on, abandonAnnounce, State.withOrig]
  rw [h, PublishQueue.total_of_entries (Event.demoteUnpublished_entries _), Event.discardPq_total]

theorem Event.isolate_pq_held (h : e.host.hold = .publishHold) : e.isolate.pq.held = none := by
  have hh : (isolating e).discardPq.host.hold = .publishHold := by
    rw [show (isolating e).discardPq.host = e.host by
      simp [isolating, Event.on, setLevel, setMode, State.withNode, Event.raise], h]
  have hp : e.isolate.pq = (isolating e).discardPq.demoteUnpublished.pq := by
    rw [Event.isolate_eq]
    simp [Event.on, abandonAnnounce, State.withOrig]
  rw [hp]
  cases hw : heldWindow (isolating e).discardPq.toState with
  | none => rw [Event.demoteUnpublished_of_none _ hh hw]; rfl
  | some i => rw [Event.demoteUnpublished_of_window _ hh hw, Event.requestDiverged_pq]; rfl

/-- The windows isolation asks DIVERGED for: those of both queues and that of a write in PUBLISH_HOLD (R48, R54, R99). -/
def IsolationAsks (s : State) (i : WinIdx) : Prop :=
  (∃ p ∈ s.pq.entries, p.window = i) ∨ (∃ f ∈ s.orig.flight, f.window = i) ∨
    (s.host.hold = .publishHold ∧ ∃ c ∈ s.host.cycle, c.window = some i)

theorem Event.Marks.abandoned {P : WinIdx → Prop} {f : Event} (h : e.Marks P f) : e.Marks P (f.on abandonAnnounce) :=
  h.trans_none rfl fun _ => id

theorem Event.isolate_marks (e : Event) : e.Marks (IsolationAsks e.toState) e.isolate := by
  have h0 : e.Marks (fun _ => False) (isolating e) := Event.Marks.none rfl fun _ ho => List.mem_append_left _ ho
  have h1 := h0.trans (isolating e).discardPq_marks
  have h2 := h1.trans (isolating e).discardPq.demoteUnpublished_marks
  have h3 := h2.trans (isolating e).discardPq.demoteUnpublished.discardFlight_marks
  have hhost : (isolating e).discardPq.host = e.host := by
    simp [isolating, Event.on, setLevel, setMode, State.withNode, Event.raise]
  have hflight : (isolating e).discardPq.demoteUnpublished.orig = e.orig := by
    simp [isolating, Event.on, setLevel, setMode, State.withNode, Event.raise]
  rw [Event.isolate_eq]
  refine h3.abandoned.congr fun j => ?_
  rw [heldWindow, hhost, hflight, show (isolating e).pq = e.pq from rfl, Option.bind_eq_some_iff, false_or,
    IsolationAsks, or_assoc]
  exact or_congr_right or_comm

theorem Event.isolate_levelChange (e : Event) : .levelChange ∈ e.isolate.raised := by
  have h1 : Occurrence.levelChange ∈ (isolating e).raised := List.mem_append_right _ (List.mem_singleton_self _)
  have h2 := (isolating e).discardPq_marks.raised _ h1
  have h3 := (isolating e).discardPq.demoteUnpublished_marks.raised _ h2
  rw [Event.isolate_eq]
  exact ((isolating e).discardPq.demoteUnpublished.discardFlight_marks.abandoned).raised _ h3

end Isolation

/-! ## Reports (R149 to R151) -/

section Reports
variable {e : Event} {m : Mode} {r : Report}

theorem Event.reportUnder_running (hm : m ≠ .offline) :
    e.reportUnder m r = (e.on fun s => s.withNode (r.apply s.node)).evaluateLevel := if_neg hm

/-- A counted report that does not isolate moves its counter and sets the level. -/
theorem Event.reportUnder_kept (hm : m ≠ .offline)
    (h : e.node.level = .isolated ∨ (r.apply e.node).levelAfter ≠ .isolated) :
    (e.reportUnder m r).toState =
      e.toState.withNode { r.apply e.node with level := (r.apply e.node).levelAfter } ∧
      (e.reportUnder m r).raised =
        e.raised ++ if (r.apply e.node).levelAfter = e.node.level then [] else [.levelChange] := by
  rw [Event.reportUnder_running hm]
  have hk := Event.evaluateLevel_kept (e := e.on fun s => s.withNode (r.apply s.node))
    (by rw [show (e.on fun s => s.withNode (r.apply s.node)).node = r.apply e.node from rfl, Report.apply_level]
        exact h)
  rw [show (e.on fun s => s.withNode (r.apply s.node)).node = r.apply e.node from rfl, Report.apply_level] at hk
  exact hk

theorem Event.reportUnder_isolating (hm : m ≠ .offline) (hl : e.node.level ≠ .isolated)
    (h : (r.apply e.node).levelAfter = .isolated) :
    e.reportUnder m r = (e.on fun s => s.withNode (r.apply s.node)).isolate := by
  rw [Event.reportUnder_running hm]
  exact Event.evaluateLevel_isolating
    (by rw [show (e.on fun s => s.withNode (r.apply s.node)).node = r.apply e.node from rfl, Report.apply_level]
        exact hl) h

/-- What any counted report makes of Node Control's counters and level. -/
theorem Event.reportUnder_counts (hm : m ≠ .offline) :
    (e.reportUnder m r).node.lif = (r.apply e.node).lif ∧ (e.reportUnder m r).node.rtf = (r.apply e.node).rtf ∧
      (e.reportUnder m r).node.level = (r.apply e.node).levelAfter := by
  by_cases h : e.node.level = .isolated ∨ (r.apply e.node).levelAfter ≠ .isolated
  · rw [(Event.reportUnder_kept hm h).1]
    exact ⟨rfl, rfl, rfl⟩
  · obtain ⟨hl, hi⟩ := not_or.1 h
    rw [Event.reportUnder_isolating hm hl (not_not.1 hi), Event.isolate_node]
    exact ⟨rfl, rfl, (not_not.1 hi).symm⟩

end Reports

/-- Settles O37: the report that isolates and the one that does not. -/
theorem faultReportsSetTheLevel : Obligations.FaultReportsSetTheLevel := by
  intro e m r
  refine ⟨fun hm => by rw [hm, Event.reportUnder_offline], fun hm => ?_⟩
  intro lif rtf t level
  have hlif : (r.apply e.node).lif.toNat = lif := by cases r <;> simp [Report.apply, lif, Config.badFrameWeight, Config.transitDropWeight]
  have hrtf : (r.apply e.node).rtf.toNat = rtf := by cases r <;> simp [Report.apply, rtf, Config.lostReturnWeight, Config.objectionWeight]
  have hlevel : (r.apply e.node).levelAfter = level := by
    rw [NodeControl.levelAfter, Report.apply_level, hlif, hrtf]
  obtain ⟨hl1, hl2, hl3⟩ := Event.reportUnder_counts (e := e) (r := r) hm
  rw [hlevel] at hl3
  refine ⟨(congrArg _ hl1).trans hlif, (congrArg _ hl2).trans hrtf, hl3, fun hne => ?_, fun hne hiso => ?_, fun hk => ?_⟩
  · by_cases h : e.node.level = .isolated ∨ level ≠ .isolated
    · rw [show t.raised = _ from (Event.reportUnder_kept hm (hlevel ▸ h)).2, hlevel, if_neg hne]
      exact List.mem_append_right _ (List.mem_singleton_self _)
    · obtain ⟨hl, hi⟩ := not_or.1 h
      rw [show t = _ from Event.reportUnder_isolating hm hl (hlevel.trans (not_not.1 hi))]
      exact Event.isolate_levelChange _
  · have ht : t = (e.on fun s => s.withNode (r.apply s.node)).isolate :=
      Event.reportUnder_isolating hm (fun h => hne (hiso.trans h.symm)) (hlevel.trans hiso)
    have hmarks := (e.on fun s => s.withNode (r.apply s.node)).isolate_marks
    have hhost := (e.on fun s => s.withNode (r.apply s.node)).isolate_host
    rw [ht, Event.isolate_node, Event.isolate_orig, Event.isolate_pq_total, hhost]
    refine ⟨rfl, rfl, rfl, rfl, rfl, rfl, ?_, fun hn => if_neg hn, fun hh => ?_, fun i => ⟨fun ha hk => ⟨?_, ?_⟩, fun hn => ?_, hmarks.rest i⟩⟩
    · split
      · exact fun h => nomatch h
      · assumption
    · refine ⟨Event.isolate_pq_held hh, ?_⟩
      rw [if_pos (show (e.on fun s => s.withNode (r.apply s.node)).host.hold = .publishHold from hh)]
      exact ⟨rfl, rfl, rfl⟩
    · rw [hmarks.marked i ha hk]
    · exact fun hd => hmarks.caused i ha hk hd
    · exact hmarks.kept i fun ⟨ha, hk⟩ => hn.elim (fun h => h ha) fun h => nomatch h.symm.trans hk
  · have ht := (Event.reportUnder_kept (e := e) (r := r) hm
      (by rw [hlevel]; exact hk.elim (fun h => (em (level = .isolated)).elim (fun hi => .inl (h ▸ hi)) .inr) .inr)).1
    rw [show t.toState = _ from ht]
    exact ⟨Report.apply_mode r e.node, rfl, rfl, rfl, rfl⟩

end Sys2Proof.Machine
end

section
/-! SUPPORT. The inbound link: what a received group, the signal detector and a cut-off do (R58 to R64), and the
statements about them. -/

namespace Sys2Proof.Machine

/-! ## What a report leaves to the arbiters -/

section Reports
variable {s t : State} {e f : Event}

/-- An isolated node has no offer, and any other report leaves the offer as it was (R82, R151, R154). -/
theorem OutputSettled.reportUnder (h : OutputSettled e.toState) (m : Mode) (r : Report) :
    OutputSettled (e.reportUnder m r).toState := by
  by_cases hm : m = .offline
  · rw [hm, Event.reportUnder_offline]
    exact h
  by_cases hk : e.node.level = .isolated ∨ (r.apply e.node).levelAfter ≠ .isolated
  · rw [(Event.reportUnder_kept hm hk).1]
    exact h.congr rfl rfl (originationOffer_congr rfl (Report.apply_mode r e.node) rfl)
  · obtain ⟨hl, hi⟩ := not_or.1 hk
    rw [Event.reportUnder_isolating hm hl (not_not.1 hi)]
    intro hs hr
    rw [Event.isolate_out] at hs ⊢
    rw [Event.isolate_link] at hr
    refine ⟨(h hs hr).1, ?_⟩
    simp [originationOffer, announceOffer, Event.isolate_orig, Event.isolate_node, Mode.sends]

theorem Event.report_nextSeq (e : Event) (r : Report) : (e.report r).orig.nextSeq = e.orig.nextSeq :=
  (Event.report_keeps (.refl e.toState) r).nextSeq

/-- A report of a bad frame or a cut-off adds the bad-frame weight in a running mode (R149, R151). -/
theorem Event.report_lifRaised {r : Report} (hr : r = .badFrame ∨ r = .cutOff) :
    LifRaised 6 e.toState (e.report r).toState := by
  by_cases hm : e.node.mode = .offline
  · simp [LifRaised, Event.report, hm]
  · obtain ⟨hlif, hrtf, -⟩ := Event.reportUnder_counts (e := e) (r := r) hm
    refine ⟨?_, hrtf.trans (by rcases hr with rfl | rfl <;> rfl)⟩
    rw [if_neg hm, show (e.report r).node.lif = _ from hlif]
    rcases hr with rfl | rfl <;> exact satAdd_toNat _ _

/-- An event after the report of a bad frame or a cut-off: what it leaves of the state before it. -/
structure Reported (s : State) (f : Event) : Prop where
  resetN : f.resetN = s.resetN
  settled : OutputSettled f.toState
  moments : f.moments = []
  counts : LifRaised 6 s f.toState
  outbound : f.link.outbound = s.link.outbound
  out : f.out = s.out
  sources : f.sources = s.sources
  mem : f.mem = s.mem
  aq : f.aq = s.aq
  arb : f.arb = s.arb
  nextSeq : f.orig.nextSeq = s.orig.nextSeq

theorem reported_report (hs : Settled s) {l : LinkInterface} (hl : l.outbound = s.link.outbound) {r : Report}
    (hr : r = .badFrame ∨ r = .cutOff) : Reported s ((Event.begin (s.withLink l)).report r) where
  resetN := Event.report_resetN _ _
  settled := OutputSettled.reportUnder (e := Event.begin (s.withLink l))
    (OutputSettled.congr (s := s) hs.2.1 rfl hl (originationOffer_congr rfl rfl rfl)) _ _
  moments := (Event.report_moments _ _).trans hs.1
  counts := Event.report_lifRaised (e := Event.begin (s.withLink l)) hr
  outbound := by rw [Event.report_link]; exact hl
  out := Event.report_out _ _
  sources := Event.report_sources _ _
  mem := Event.report_mem _ _
  aq := Event.report_aq _ _
  arb := Event.report_arb _ _
  nextSeq := (Event.report_nextSeq _ _).trans rfl

theorem Reported.withLink (h : Reported s f) {g : Event} {l : LinkInterface} (hg : g.toState = f.toState.withLink l)
    (hl : l.outbound = s.link.outbound) : Reported s g where
  resetN := by rw [hg]; exact h.resetN
  settled := by
    rw [hg]
    exact h.settled.congr rfl (hl.trans h.outbound.symm) (originationOffer_congr rfl rfl rfl)
  moments := by rw [hg]; exact h.moments
  counts := by rw [hg]; exact h.counts
  outbound := by rw [hg]; exact hl
  out := by rw [hg]; exact h.out
  sources := by rw [hg]; exact h.sources
  mem := by rw [hg]; exact h.mem
  aq := by rw [hg]; exact h.aq
  arb := by rw [hg]; exact h.arb
  nextSeq := by rw [hg]; exact h.nextSeq

theorem Reported.commit (h : Reported s f) : Reported s (Event.begin f.commit) where
  resetN := (Event.commit_resetN f).trans h.resetN
  settled := Event.outputSettled_commit h.settled
  moments := (Event.commit_moments f).trans h.moments
  counts := by
    rw [LifRaised, show (Event.begin f.commit).node = f.node from Event.commit_node f]
    exact h.counts
  outbound := (congrArg _ (Event.commit_link f)).trans h.outbound
  out := (Event.commit_out f).trans h.out
  sources := (Event.commit_sources f).trans h.sources
  mem := (Event.commit_mem f).trans h.mem
  aq := (Event.commit_aq f).trans h.aq
  arb := (Event.commit_arb f).trans h.arb
  nextSeq := (congrArg _ (Event.commit_orig f)).trans h.nextSeq

theorem Reported.finish (h : Reported s f) (hs : Settled s) :
    LifRaised 6 s f.finish ∧ f.finish.link = f.link ∧ f.finish.out = s.out ∧ f.finish.sources = s.sources ∧
      f.finish.mem = s.mem ∧ f.finish.aq = s.aq ∧ f.finish.orig.nextSeq = s.orig.nextSeq := by
  have hend := Event.finish_ended (.inl h.moments) h.settled
  refine ⟨?_, hend.link, hend.out.trans h.out, hend.sources.trans h.sources, hend.mem.trans h.mem,
    (hend.aq_eq fun ha => ?_).trans h.aq, (congrArg _ hend.orig).trans h.nextSeq⟩
  · rw [LifRaised, hend.node]
    exact h.counts
  · rw [h.aq]
    exact (hs.2.2 (h.arb ▸ ha)).2

theorem settled_withLink (hs : Settled s) {l : LinkInterface} (hl : l.outbound = s.link.outbound) :
    Settled (s.withLink l) :=
  ⟨hs.1, hs.2.congr rfl hl (originationOffer_congr rfl rfl rfl) rfl rfl rfl⟩

end Reports

/-! ## Cut-offs (R64) -/

section CutOff
variable {s : State}

/-- A cut-off of the partial frame of link `l`. -/
def cutEvent (l : LinkInterface) (s : State) : Event :=
  (Event.begin (s.withLink { l with assembly := none, skip := true })).report .cutOff

theorem cutOff_begin {l : LinkInterface} (h : l.assembly.isSome = true) :
    (Event.begin (s.withLink l)).cutOff = cutEvent l s := if_pos h

theorem cutEvent_link (l : LinkInterface) (s : State) :
    (cutEvent l s).link = { l with assembly := none, skip := true } := Event.report_link _ _

theorem reported_cutEvent (hs : Settled s) {l : LinkInterface} (hl : l.outbound = s.link.outbound) :
    Reported s (cutEvent l s) := by
  unfold cutEvent
  exact reported_report (l := { l with assembly := none, skip := true }) hs hl (.inr rfl)

end CutOff

/-! ## The signal detector (R58, R59) -/

section Signal
variable {s : State}

theorem exec_signalDetected (hr : s.resetN = true) : exec .signalDetected s = .next
    (if s.link.inbound = .noSignal then
      s.withLink { s.link with inbound := .aligning, validRun := 0, lastTransition := s.node.timebase }
    else s.withLink { s.link with lastTransition := s.node.timebase }) := by
  refine (if_pos hr).trans (congrArg Host.Outcome.next ?_)
  by_cases h : s.link.inbound = .noSignal
  · rw [if_pos h]
    exact if_pos h
  · rw [if_neg h]
    exact if_neg h

theorem exec_lossOfSignal (hr : s.resetN = true) (hi : s.link.inbound ≠ .noSignal)
    (ht : 2 ≤ (s.node.timebase - s.link.lastTransition).toNat) :
    exec .lossOfSignal s = .next (Event.begin s).loseSignal.finish := by
  have hel : elapsed s.node.timebase s.link.lastTransition Config.lossOfSignalTime = true := decide_eq_true ht
  refine if_pos ?_
  simp [lossOfSignalDue, hr, hi, hel]

/-- The loss of signal outside UP, and in UP, from the event in which a partial frame has been cut off. -/
theorem Event.loseSignal_eq (e : Event) : e.loseSignal =
    if e.link.inbound = .up then
      (e.cutOff.on fun s => s.withLink { s.link with inbound := .noSignal, skip := true }).raise .linkChange
    else e.cutOff.on fun s => s.withLink { s.link with inbound := .noSignal, skip := true } := by
  cases h : e.link.inbound <;> simp [Event.loseSignal, h]

theorem Event.cutOff_of_none {e : Event} (h : e.link.assembly = none) : e.cutOff = e := by simp [Event.cutOff, h]

end Signal

/-- Settles O17: the detector stamps, and a loss of signal is one event, with the cut-off and its report first. -/
theorem signalIsFoundAndLost : Obligations.SignalIsFoundAndLost := by
  refine ⟨fun s hr hi => ?_, fun s hr hi => ?_, fun s hs hr hi ha ht => ?_, fun s hs hr hi ha ht => ?_,
    fun s hs hr hi ha ht => ?_⟩
  · rw [exec_signalDetected hr, if_pos hi]
  · rw [exec_signalDetected hr, if_neg hi]
  · rw [exec_lossOfSignal hr (by rw [hi]; decide) ht, Event.loseSignal_eq, if_neg (fun h => by cases hi.symm.trans h),
      Event.cutOff_of_none ha, Event.finish_of_settled_nil _ (settled_withLink hs rfl) rfl]
    rfl
  · rw [exec_lossOfSignal hr (by rw [hi]; decide) ht, Event.loseSignal_eq, if_pos (show (Event.begin s).link.inbound = .up from hi), Event.cutOff_of_none ha,
      Event.finish_of_settled _ (settled_withLink hs rfl), Event.commit_of_single _ .linkChange hr rfl]
    rfl
  · refine ⟨_, exec_lossOfSignal hr (by rw [hi]; decide) ht, ?_⟩
    rw [Event.loseSignal_eq, if_pos (show (Event.begin s).link.inbound = .up from hi), show (Event.begin s).cutOff = cutEvent s.link s from cutOff_begin ha]
    have hrep := (reported_cutEvent (l := s.link) hs rfl).withLink
      (g := ((cutEvent s.link s).on fun s => s.withLink { s.link with inbound := .noSignal, skip := true }).raise .linkChange)
      rfl (by rw [cutEvent_link])
    obtain ⟨hc, hl, ho, hso, hm, -⟩ := hrep.finish hs
    refine ⟨hl.trans ?_, hc, Event.pending_finish (hrep.resetN.trans hr) (o := .linkChange) (by simp), ho, hso, hm⟩
    show ({ (cutEvent s.link s).link with inbound := .noSignal, skip := true } : LinkInterface) = _
    rw [cutEvent_link]

/-! ## Runs of symbols (R60, R61) -/

/-- Settles O18: entry into UP, and the exit with or without a partial frame. -/
theorem linkComesUpAndLosesAlignment : Obligations.LinkComesUpAndLosesAlignment := by
  refine ⟨fun s hs hr hi => ?_, fun s hs hr hi ha => ?_, fun s hs hr hi ha => ?_⟩
  · have hexec : exec .linkUp s = .next ((Event.begin s).on stampTransition).enterUp.finish := if_pos ⟨hr, hi⟩
    rw [hexec, Event.finish_of_settled _ (settled_withLink (s := stampTransition s) (settled_withLink hs rfl) rfl),
      Event.commit_of_single _ .linkChange hr rfl]
    rfl
  · have hexec : exec .alignmentLost s = .next (Event.begin (runBegins s)).loseAlignment.finish := if_pos ⟨hr, hi⟩
    rw [hexec, runBegins_of_none ha, Event.finish_of_settled _ (settled_withLink hs rfl),
      Event.commit_of_single _ .linkChange hr rfl]
    congr 2
    simp only [Event.loseAlignment, Event.raise_toState, Event.on_toState]
    rw [show (Event.begin s).toState = s from rfl, ← ha]
  · refine ⟨_, if_pos ⟨hr, hi⟩, ?_⟩
    rw [runBegins_of_some ha, show (Event.begin s).cutOff = cutEvent s.link s from cutOff_begin ha]
    have hcut := (reported_cutEvent (l := s.link) hs rfl).commit
    have hrep := hcut.withLink (g := (Event.begin (cutEvent s.link s).commit).loseAlignment) rfl
      (by rw [show (Event.begin (cutEvent s.link s).commit).link = _ from Event.commit_link _, cutEvent_link])
    obtain ⟨hc, hl, ho, hso, hm, -⟩ := hrep.finish hs
    refine ⟨hl.trans ?_, hc, Event.pending_finish (hrep.resetN.trans hr) (o := .linkChange)
      (List.mem_append_right _ (List.mem_singleton_self _)), ho, hso, hm⟩
    show ({ (cutEvent s.link s).commit.link with
      inbound := .aligning, validRun := 0, invalidRun := Config.loseRun, assembly := none, skip := true } : LinkInterface) = _
    rw [Event.commit_link, cutEvent_link]

/-! ## Received groups (R60 to R63, R188) -/

section Groups
variable {s : State} {g : BitVec 10} {sym : Symbol}

/-- The state as a received group finds it, its transition stamped (assumption 17). -/
def groupSeen (g : BitVec 10) (s : State) : State := if groupHasTransition g then stampTransition s else s

theorem exec_symbolReceived (hr : s.resetN = true) (hi : s.link.inbound ≠ .noSignal) (hg : classifyGroup g = sym) :
    exec (.symbolReceived g) s = .next ((Event.begin (groupSeen g s)).symbol sym).finish := by
  rw [← hg]
  exact if_pos ⟨hr, hi⟩

theorem groupHasTransition_iff : groupHasTransition g = true ↔ ¬(g = 0 ∨ g = 0x3FF#10) := by
  simp [groupHasTransition]

/-- The link as a received group finds it: a group of ten equal bits holds no transition. -/
def seenLink (g : BitVec 10) (s : State) : LinkInterface :=
  { s.link with lastTransition := if g = 0 ∨ g = 0x3FF#10 then s.link.lastTransition else s.node.timebase }

theorem groupSeen_eq (g : BitVec 10) (s : State) : groupSeen g s = s.withLink (seenLink g s) := by
  by_cases h : g = 0 ∨ g = 0x3FF#10
  · have hg : ¬groupHasTransition g = true := fun hg => groupHasTransition_iff.1 hg h
    rw [groupSeen, if_neg hg, seenLink, if_pos h]
    rfl
  · rw [groupSeen, if_pos (groupHasTransition_iff.2 h), seenLink, if_neg h]
    rfl

/-- A group that is the code of a symbol holds a transition. -/
theorem groupSeen_of_code (h : codeGroup sym = some g) : groupSeen g s = stampTransition s := by
  have hne : sym ≠ .invalid := by rintro rfl; cases h
  have hclass := classifyGroup_codeGroup h
  refine if_pos (groupHasTransition_iff.2 ?_)
  rintro (rfl | rfl)
  · exact hne (hclass.symm.trans (by decide))
  · exact hne (hclass.symm.trans (by decide))

theorem code_ne_invalid (h : codeGroup sym = some g) : sym ≠ .invalid := by rintro rfl; cases h

theorem Event.symbol_aligning {e : Event} (hi : e.link.inbound = .aligning) : e.symbol sym =
    if sym = .invalid then
      e.on fun s => s.withLink { s.link with validRun := 0, groupBoundary := s.link.groupBoundary + 1 }
    else if e.link.validRun + 1 ≥ Config.alignRun then e.enterUp
    else e.on fun s => s.withLink { s.link with validRun := s.link.validRun + 1 } := by
  unfold Event.symbol
  rw [hi]

theorem Event.symbol_up {e : Event} (hi : e.link.inbound = .up) : e.symbol sym =
    if sym = .invalid then e.invalidInUp else e.validInUp sym := by
  unfold Event.symbol
  rw [hi]

/-- Between frames START alone has an effect beyond the invalid run (R63). -/
theorem validInUp_between (ha : s.link.assembly = none) (hs : sym ≠ .invalid) : (Event.begin s).validInUp sym =
    Event.begin (s.withLink (if sym = .startFrame then
        { s.link with assembly := some [], skip := false, invalidRun := 0 }
      else { s.link with invalidRun := 0 })) := by
  have ha' : ((Event.begin s).on fun s => s.withLink { s.link with invalidRun := 0 }).link.assembly = none := ha
  unfold Event.validInUp
  dsimp only
  rw [ha']
  cases sym with
  | startFrame => rfl
  | invalid => exact absurd rfl hs
  | _ => rfl

/-- In a frame a symbol appends, arrives or cuts off (R63). -/
theorem Event.validInUp_data {e : Event} {bs : List Byte} (ha : e.link.assembly = some bs) (v : Byte) :
    e.validInUp (.data v) =
      if 27 ≤ bs.length then (e.on fun s => s.withLink { s.link with invalidRun := 0 }).cutOff
      else (e.on fun s => s.withLink { s.link with invalidRun := 0 }).on fun s =>
        s.withLink { s.link with assembly := some (bs ++ [v]) } := by
  have ha' : (e.on fun s => s.withLink { s.link with invalidRun := 0 }).link.assembly = some bs := ha
  unfold Event.validInUp
  dsimp only
  rw [ha']

theorem Event.validInUp_end {e : Event} {bs : List Byte} (ha : e.link.assembly = some bs) :
    e.validInUp .endFrame = (e.on fun s => s.withLink { s.link with invalidRun := 0 }).frameEnd bs := by
  have ha' : (e.on fun s => s.withLink { s.link with invalidRun := 0 }).link.assembly = some bs := ha
  unfold Event.validInUp
  dsimp only
  rw [ha']

theorem Event.validInUp_start {e : Event} {bs : List Byte} (ha : e.link.assembly = some bs) :
    e.validInUp .startFrame = (e.on fun s => s.withLink { s.link with invalidRun := 0 }).cutOff.on openFrame := by
  have ha' : (e.on fun s => s.withLink { s.link with invalidRun := 0 }).link.assembly = some bs := ha
  unfold Event.validInUp
  dsimp only
  rw [ha']

theorem Event.validInUp_idle {e : Event} {bs : List Byte} (ha : e.link.assembly = some bs) :
    e.validInUp .idle = (e.on fun s => s.withLink { s.link with invalidRun := 0 }).cutOff := by
  have ha' : (e.on fun s => s.withLink { s.link with invalidRun := 0 }).link.assembly = some bs := ha
  unfold Event.validInUp
  dsimp only
  rw [ha']

theorem Event.invalidInUp_between {e : Event} (ha : e.link.assembly = none) : e.invalidInUp =
    if e.link.invalidRun + 1 ≥ 4 then e.loseAlignment
    else e.on fun s => s.withLink { s.link with invalidRun := s.link.invalidRun + 1 } := by
  unfold Event.invalidInUp
  rw [Event.cutOff_of_none ha]

end Groups

/-- Settles O20: each row in its state, ended with nothing to choose. -/
theorem symbolsAreReceived : Obligations.SymbolsAreReceived := by
  refine ⟨fun g s hi => ?_, fun sym g s hg hs hr hi hv => ?_, fun g s hg hs hr hi => ?_,
    fun sym g s hg hs hr hi ha => ?_, fun v bs s hs hr hi ha hl => ?_, fun g s hg hs hr hi ha hv => ?_⟩
  · exact if_neg fun h => h.2 hi
  · have hlt : ¬(Event.begin (stampTransition s)).link.validRun + 1 ≥ Config.alignRun := by
      show ¬s.link.validRun + 1 ≥ 32
      omega
    rw [exec_symbolReceived hr (by rw [hi]; decide) (classifyGroup_codeGroup hg), groupSeen_of_code hg,
      Event.symbol_aligning (e := Event.begin (stampTransition s)) hi, if_neg (code_ne_invalid hg), if_neg hlt,
      Event.finish_of_settled_nil _ (settled_withLink (s := stampTransition s) (settled_withLink hs rfl) rfl) rfl]
    rfl
  · rw [exec_symbolReceived hr (by rw [hi]; decide) hg, groupSeen_eq,
      Event.symbol_aligning (e := Event.begin (s.withLink (seenLink g s))) hi, if_pos rfl,
      Event.finish_of_settled_nil _ (settled_withLink (settled_withLink hs rfl) rfl) rfl]
    rfl
  · rw [exec_symbolReceived hr (by rw [hi]; decide) (classifyGroup_codeGroup hg), groupSeen_of_code hg,
      Event.symbol_up (e := Event.begin (stampTransition s)) hi, if_neg (code_ne_invalid hg),
      validInUp_between (s := stampTransition s) ha (code_ne_invalid hg), Event.finish_of_settled_nil _ (settled_withLink (s := stampTransition s)
        (settled_withLink hs rfl) (by split <;> rfl)) rfl]
    congr 1
  · have hg : codeGroup (.data v) = some (0b10#2 ++ v) := rfl
    rw [exec_symbolReceived hr (by rw [hi]; decide) (classifyGroup_codeGroup hg), groupSeen_of_code hg,
      Event.symbol_up (e := Event.begin (stampTransition s)) hi, if_neg (code_ne_invalid hg),
      Event.validInUp_data (e := Event.begin (stampTransition s)) (bs := bs) ha, if_neg (by omega),
      Event.finish_of_settled_nil _ (settled_withLink (settled_withLink (s := stampTransition s)
        (settled_withLink hs rfl) rfl) rfl) rfl]
    rfl
  · rw [exec_symbolReceived hr (by rw [hi]; decide) hg, groupSeen_eq,
      Event.symbol_up (e := Event.begin (s.withLink (seenLink g s))) hi, if_pos rfl, Event.invalidInUp_between (e := Event.begin (s.withLink (seenLink g s))) ha,
      if_neg (by show ¬s.link.invalidRun + 1 ≥ 4; omega),
      Event.finish_of_settled_nil _ (settled_withLink (settled_withLink hs rfl) rfl) rfl]
    rfl

/-! ## Rows that stand for a run (assumption 8) -/

section Rows
variable {s : State} {g : BitVec 10} {sym : Symbol}

theorem exec_cutOff_row (hr : s.resetN = true) (hi : s.link.inbound = .up) (ha : s.link.assembly.isSome = true)
    (sym : Symbol) : exec (.frameCutOff sym) s = match sym with
      | .startFrame => .next (((Event.begin s).on stampTransition).validInUp .startFrame).finish
      | .idle => .next (((Event.begin s).on stampTransition).validInUp .idle).finish
      | .data _ =>
        .next (((Event.begin s).on stampTransition).on fun s => s.withLink { s.link with invalidRun := 0 }).cutOff.finish
      | .invalid => .next (Event.begin s).invalidInUp.finish
      | .endFrame => .next s := by
  refine (if_pos ⟨hr, hi, ha⟩).trans ?_
  cases sym <;> rfl

theorem canArrive_iff {bytes : List Byte} : canArrive bytes s = true ↔ Arriving s bytes := by
  cases h : s.link.assembly <;>
    simp [canArrive, h, Arriving, Config.maxPartial, and_assoc]

theorem exec_frameArrival {bytes : List Byte} (h : Arriving s bytes) : exec (.frameArrival bytes) s =
    .next ((Event.begin (s.withLink s.linkAfterFrame)).receive bytes).finish := by
  refine (if_pos (canArrive_iff.2 h)).trans ?_
  rfl

end Rows

/-- The state a group leaves before it is received, as O21 writes it. -/
theorem seen_eq (g : BitVec 10) (s : State) :
    (if g = 0 ∨ g = 0x3FF#10 then s else s.withLink { s.link with lastTransition := s.node.timebase }) =
      s.withLink (seenLink g s) := by
  unfold seenLink
  split <;> rfl

/-- Settles O21: a row and the symbol that completes its run are one event. -/
theorem runRowsAreTheirLastSymbol : Obligations.RunRowsAreTheirLastSymbol := by
  refine ⟨fun bs s hr hi ha hl => ?_, fun sym g bs s hg hr hi ha hc hend => ?_, fun sym g s hg hr hi hv => ?_,
    fun g s hg hr hi => ⟨fun ha => ?_, fun ha hv => ?_⟩⟩
  · have hg : codeGroup .endFrame = some (0b01#2 ++ 0xF0#8) := rfl
    have harr : Arriving s bs := ⟨hr, hi, hl, fun held hh => by
      cases (show some bs = some held from ha.symm.trans hh)
      exact List.isPrefixOf_iff_prefix.2 (List.prefix_refl _)⟩
    rw [exec_symbolReceived hr (by rw [hi]; decide) (classifyGroup_codeGroup hg), groupSeen_of_code hg,
      Event.symbol_up (e := Event.begin (stampTransition s)) hi, if_neg (code_ne_invalid hg),
      Event.validInUp_end (e := Event.begin (stampTransition s)) ha, exec_frameArrival harr]
    rfl
  · rw [exec_symbolReceived hr (by rw [hi]; decide) (classifyGroup_codeGroup hg), groupSeen_of_code hg,
      Event.symbol_up (e := Event.begin (stampTransition s)) hi, if_neg (code_ne_invalid hg),
      exec_cutOff_row hr hi (by rw [ha]; rfl)]
    cases sym with
    | startFrame => rfl
    | idle => rfl
    | invalid => cases hg
    | endFrame => exact absurd rfl hend
    | data v =>
      have hlen : 27 ≤ bs.length := hc.elim (fun h => nomatch h) fun h => h.elim (fun h => nomatch h) id
      rw [Event.validInUp_data (e := Event.begin (stampTransition s)) (bs := bs) ha, if_pos hlen]
      rfl
  · have hup : exec .linkUp s = .next ((Event.begin s).on stampTransition).enterUp.finish := if_pos ⟨hr, hi⟩
    rw [exec_symbolReceived hr (by rw [hi]; decide) (classifyGroup_codeGroup hg), groupSeen_of_code hg,
      Event.symbol_aligning (e := Event.begin (stampTransition s)) hi, if_neg (code_ne_invalid hg),
      if_pos (show (Event.begin (stampTransition s)).link.validRun + 1 ≥ Config.alignRun by
        rw [show (Event.begin (stampTransition s)).link.validRun = 31 from hv]), hup]
    rfl
  · rw [exec_symbolReceived hr (by rw [hi]; decide) hg, groupSeen_eq, Event.symbol_up (e := Event.begin (s.withLink (seenLink g s))) hi, if_pos rfl,
      seen_eq, exec_cutOff_row (s := s.withLink (seenLink g s)) hr hi ha]
  · have hlost : exec .alignmentLost (s.withLink (seenLink g s)) =
        .next (Event.begin (runBegins (s.withLink (seenLink g s)))).loseAlignment.finish := if_pos ⟨hr, hi⟩
    rw [exec_symbolReceived hr (by rw [hi]; decide) hg, groupSeen_eq,
      Event.symbol_up (e := Event.begin (s.withLink (seenLink g s))) hi, if_pos rfl,
      Event.invalidInUp_between (e := Event.begin (s.withLink (seenLink g s))) ha,
      if_pos (show (Event.begin (s.withLink (seenLink g s))).link.invalidRun + 1 ≥ 4 by
        rw [show (Event.begin (s.withLink (seenLink g s))).link.invalidRun = 3 from hv]), seen_eq, hlost,
      runBegins_of_none (s := s.withLink (seenLink g s)) ha]

/-! ## Cut-offs and bad frames (R64, R69) -/

section CutOffRows
variable {s : State}

/-- The link in which a valid symbol cuts off the partial frame. -/
def validLink (s : State) : LinkInterface := { s.link with invalidRun := 0, lastTransition := s.node.timebase }

/-- The event of each kind of symbol that cuts off a partial frame: what follows the cut-off itself. -/
theorem exec_cutOff_start (hr : s.resetN = true) (hi : s.link.inbound = .up) (ha : s.link.assembly.isSome = true) :
    exec (.frameCutOff .startFrame) s = .next ((cutEvent (validLink s) s).on openFrame).finish := by
  obtain ⟨bs, hbs⟩ := Option.isSome_iff_exists.1 ha
  rw [exec_cutOff_row hr hi ha]
  dsimp only
  rw [Event.validInUp_start (e := (Event.begin s).on stampTransition) hbs]
  rw [← show (Event.begin (s.withLink (validLink s))).cutOff = cutEvent (validLink s) s from cutOff_begin ha]
  rfl

theorem exec_cutOff_valid (hr : s.resetN = true) (hi : s.link.inbound = .up) (ha : s.link.assembly.isSome = true)
    {sym : Symbol} (hs : sym = .idle ∨ ∃ v, sym = .data v) :
    exec (.frameCutOff sym) s = .next (cutEvent (validLink s) s).finish := by
  obtain ⟨bs, hbs⟩ := Option.isSome_iff_exists.1 ha
  rw [exec_cutOff_row hr hi ha]
  rw [← show (Event.begin (s.withLink (validLink s))).cutOff = cutEvent (validLink s) s from cutOff_begin ha]
  rcases hs with rfl | ⟨v, rfl⟩
  · dsimp only
    rw [Event.validInUp_idle (e := (Event.begin s).on stampTransition) hbs]
    rfl
  · rfl

theorem exec_cutOff_invalid (hr : s.resetN = true) (hi : s.link.inbound = .up) (ha : s.link.assembly.isSome = true) :
    exec (.frameCutOff .invalid) s = .next
      (if s.link.invalidRun + 1 ≥ 4 then (cutEvent s.link s).loseAlignment
        else (cutEvent s.link s).on fun s => s.withLink { s.link with invalidRun := s.link.invalidRun + 1 }).finish := by
  rw [exec_cutOff_row hr hi ha]
  dsimp only
  unfold Event.invalidInUp
  rw [show (Event.begin s).cutOff = cutEvent s.link s from cutOff_begin ha]
  dsimp only
  rw [show (cutEvent s.link s).link.invalidRun = s.link.invalidRun by rw [cutEvent_link]]

end CutOffRows

/-- Settles O19: the report of the cut-off, and the link each symbol leaves. -/
theorem frameIsCutOff : Obligations.FrameIsCutOff := by
  intro sym s hend hs hr hi ha
  have hcut := reported_cutEvent (l := validLink s) hs rfl
  have hinv := reported_cutEvent (l := s.link) hs rfl
  have hvalid (hsym : sym = .idle ∨ ∃ v, sym = .data v) : ∃ t, exec (.frameCutOff sym) s = .next t ∧
      t.link = { validLink s with assembly := none, skip := true } ∧ LifRaised 6 s t ∧ t.out = s.out ∧
      t.sources = s.sources ∧ t.mem = s.mem ∧ t.aq = s.aq := by
    obtain ⟨hc, hl, ho, hso, hm, hq, -⟩ := hcut.finish hs
    exact ⟨_, exec_cutOff_valid hr hi ha hsym, hl.trans (cutEvent_link _ s), hc, ho, hso, hm, hq⟩
  cases sym with
  | endFrame => exact absurd rfl hend
  | startFrame =>
    obtain ⟨hc, hl, ho, hso, hm, hq, -⟩ := (hcut.withLink (g := (cutEvent (validLink s) s).on openFrame) rfl
      (by rw [cutEvent_link]; rfl)).finish hs
    have hlink : _ = { validLink s with assembly := some [], skip := false } := hl.trans
      (show ({ (cutEvent (validLink s) s).link with assembly := some [], skip := false } : LinkInterface) = _ by
        rw [cutEvent_link])
    refine ⟨_, exec_cutOff_start hr hi ha, ?_⟩
    rw [hlink]
    exact ⟨rfl, rfl, hc, ho, hso, hm, hq, fun _ => ⟨hi, rfl⟩, fun h => (nomatch h), fun h => (nomatch h)⟩
  | idle =>
    obtain ⟨t, hexec, hlink, hc, ho, hso, hm, hq⟩ := hvalid (.inl rfl)
    refine ⟨t, hexec, ?_⟩
    rw [hlink]
    exact ⟨rfl, rfl, hc, ho, hso, hm, hq, fun _ => ⟨hi, rfl⟩, fun h => (nomatch h), fun h => (nomatch h)⟩
  | data v =>
    obtain ⟨t, hexec, hlink, hc, ho, hso, hm, hq⟩ := hvalid (.inr ⟨v, rfl⟩)
    refine ⟨t, hexec, ?_⟩
    rw [hlink]
    exact ⟨rfl, rfl, hc, ho, hso, hm, hq, fun _ => ⟨hi, rfl⟩, fun h => (nomatch h), fun h => (nomatch h)⟩
  | invalid =>
    refine ⟨_, exec_cutOff_invalid hr hi ha, ?_⟩
    by_cases hv : s.link.invalidRun + 1 ≥ 4
    · rw [if_pos hv]
      have hrep := hinv.withLink (g := (cutEvent s.link s).loseAlignment) rfl (by rw [cutEvent_link])
      obtain ⟨hc, hl, ho, hso, hm, hq, -⟩ := hrep.finish hs
      have hpend := Event.pending_finish (hrep.resetN.trans hr) (o := .linkChange)
        (List.mem_append_right _ (List.mem_singleton_self _))
      refine ⟨?_, ?_, hc, ho, hso, hm, hq, fun h => absurd rfl h, fun _ h => by omega, fun _ _ => ⟨?_, ?_, hpend⟩⟩ <;>
        rw [hl] <;> rfl
    · rw [if_neg hv]
      have hrep := hinv.withLink
        (g := (cutEvent s.link s).on fun s => s.withLink { s.link with invalidRun := s.link.invalidRun + 1 }) rfl
        (by rw [cutEvent_link])
      obtain ⟨hc, hl, ho, hso, hm, hq, -⟩ := hrep.finish hs
      have hlink : _ = { s.link with assembly := none, skip := true, invalidRun := s.link.invalidRun + 1 } := hl.trans
        (show ({ (cutEvent s.link s).link with invalidRun := (cutEvent s.link s).link.invalidRun + 1 } : LinkInterface) = _ by
          rw [cutEvent_link])
      rw [hlink]
      exact ⟨rfl, rfl, hc, ho, hso, hm, hq, fun h => absurd rfl h, fun _ _ => ⟨hi, rfl⟩, fun _ h => by omega⟩

/-! ## Bad frames (R69) -/

theorem receive_bad {s : State} {bytes : List Byte} (h : parseFrame bytes = none) :
    (Event.begin s).receive bytes = (Event.begin s).report .badFrame := by
  unfold Event.receive
  rw [h]

/-- Settles O22: a bad frame is its report. -/
theorem badFrameIsDiscarded : Obligations.BadFrameIsDiscarded := by
  intro bytes s hbad hs harr
  have hexec : exec (.frameArrival bytes) s = .next ((Event.begin (s.withLink s.linkAfterFrame)).report .badFrame).finish := by
    rw [exec_frameArrival harr, receive_bad hbad]
  have hset : Settled (s.withLink s.linkAfterFrame) := settled_withLink hs rfl
  refine ⟨?_, fun hm => ?_, fun hm hl hlif hrtf => ?_⟩
  · obtain ⟨hc, hl, ho, hso, hmem, hq, hn⟩ := (reported_report (l := s.linkAfterFrame) hs rfl (.inl rfl)).finish hs
    exact ⟨_, hexec, hc, hl.trans (Event.report_link _ _), ho, hso, hq, hmem, hn⟩
  · rw [hexec, Event.report, show (Event.begin (s.withLink s.linkAfterFrame)).node.mode = .offline from hm,
      Event.reportUnder_offline, Event.finish_of_settled_nil _ hset rfl]
    rfl
  · have hnode : Report.badFrame.apply s.node = { s.node with lif := s.node.lif + 6 } := by
      have hlif' : satAdd s.node.lif Config.badFrameWeight = s.node.lif + 6 := by
        apply BitVec.eq_of_toNat_eq
        rw [satAdd_toNat, BitVec.toNat_add]
        show min 255 (s.node.lif.toNat + 6) = (s.node.lif.toNat + 6) % 256
        omega
      rw [Report.apply, hlif']
    have hafter : (Report.badFrame.apply s.node).levelAfter = .normal := by
      have h1 : (s.node.lif + 6).toNat = s.node.lif.toNat + 6 := by
        rw [BitVec.toNat_add]
        show (s.node.lif.toNat + 6) % 256 = _
        omega
      rw [hnode, NodeControl.levelAfter]
      dsimp only
      rw [h1, if_neg (by omega), if_neg (by omega), if_neg (by rw [hl]; exact fun h => nomatch h.1), hl]
    obtain ⟨h1, h2⟩ := Event.reportUnder_kept (e := Event.begin (s.withLink s.linkAfterFrame)) (r := .badFrame) hm
      (.inr (by rw [show (Event.begin (s.withLink s.linkAfterFrame)).node = s.node from rfl, hafter]; decide))
    rw [show (Event.begin (s.withLink s.linkAfterFrame)).node = s.node from rfl, hafter, hl, if_pos rfl] at h2
    rw [show (Event.begin (s.withLink s.linkAfterFrame)).node = s.node from rfl, hafter, hnode] at h1
    have hst : ((Event.begin (s.withLink s.linkAfterFrame)).report .badFrame).toState =
        (s.withLink s.linkAfterFrame).withNode { s.node with lif := s.node.lif + 6 } := by
      rw [show ((Event.begin (s.withLink s.linkAfterFrame)).report .badFrame).toState = _ from h1]
      dsimp only
      rw [← hl]
      rfl
    rw [hexec, Event.finish_of_settled_nil ((Event.begin (s.withLink s.linkAfterFrame)).report .badFrame) ?_ h2, hst]
    rw [hst]
    exact ⟨hset.1, hset.2.congr rfl rfl (originationOffer_congr rfl rfl rfl) rfl rfl rfl⟩

end Sys2Proof.Machine
end

section
/-! SUPPORT. The Output Arbiter's choice and the commitment of an offer (R73 to R75, R81 to R84), and the statements
about them. -/

namespace Sys2Proof.Machine

/-! ## The rows of R74 -/

section Rows
variable {s : State} {e : Event} {o : Offer}

theorem Event.commitOffer_out (e : Event) (o : Offer) : (e.commitOffer o).1.out = e.out := by
  cases o with
  | announce r => rfl
  | resend f =>
    show (match flightPosition e.orig.flight f.seq with | some i => e.on (resendAt i f) | none => e).out = e.out
    cases flightPosition e.orig.flight f.seq <;> rfl
  | fresh p =>
    show (Event.roomCheck _).out = e.out
    rw [Event.roomCheck_out]
    rfl

theorem Event.commitOffer_frame (e : Event) (o : Offer) : (e.commitOffer o).2 = o.frameIn e.toState := by
  cases o <;> rfl

theorem Event.sendOffer_out (e : Event) (o : Offer) :
    (e.sendOffer o).out = { e.out with sending := some (o.frameIn e.toState), starvation := 0 } := by
  rw [← e.commitOffer_frame, ← e.commitOffer_out o]
  rfl

theorem Event.chooseOutput_of_idle (hs : e.out.sending = none) (hl : e.link.outbound = .running)
    (hf : e.out.fifo = []) (ho : originationOffer e.toState = none) : e.chooseOutput = e := by
  simp [Event.chooseOutput, hs, hl, hf, ho]

theorem Event.chooseOutput_starved {f : Frame} {rest : List Frame} (hs : e.out.sending = none)
    (hl : e.link.outbound = .running) (hf : e.out.fifo = f :: rest) (ho : originationOffer e.toState = some o)
    (hv : e.out.starvation = 8 ∧ rest.length + 1 ≤ 2) : e.chooseOutput = e.sendOffer o := by
  simp [Event.chooseOutput, hs, hl, hf, ho, hv, Config.starvationLimit]

theorem Event.chooseOutput_transit {f : Frame} {rest : List Frame} (hs : e.out.sending = none)
    (hl : e.link.outbound = .running) (hf : e.out.fifo = f :: rest)
    (hv : ¬(e.out.starvation = 8 ∧ rest.length + 1 ≤ 2)) (ho : (originationOffer e.toState).isSome = true) :
    e.chooseOutput = e.on (sendTransit f rest (min 8 (e.out.starvation + 1))) := by
  obtain ⟨o, ho⟩ := Option.isSome_iff_exists.1 ho
  unfold Event.chooseOutput
  rw [if_neg (by simp [hs, hl]), hf, ho]
  exact if_neg hv

theorem Event.chooseOutput_transit_alone {f : Frame} {rest : List Frame} (hs : e.out.sending = none)
    (hl : e.link.outbound = .running) (hf : e.out.fifo = f :: rest) (ho : originationOffer e.toState = none) :
    e.chooseOutput = e.on (sendTransit f rest 0) := by
  simp [Event.chooseOutput, hs, hl, hf, ho]

theorem exec_transmissionCompletion (hm : s.moments = []) (hs : s.out.sending.isSome = true) :
    exec .transmissionCompletion s = .next (choices (s.withOut { s.out with sending := none })) := by
  refine (if_pos hs).trans ?_
  rw [Event.finish_of_alone _ hm, Event.commit_of_nil _ rfl]
  rfl

theorem choices_eq (s : State) : choices s = arbitrate (Event.begin s).chooseOutput.toState := rfl

end Rows

/-- Settles O32: the five rows, of which the fourth leaves the offer where it is. -/
theorem outputArbiterChoosesByItsRows : Obligations.OutputArbiterChoosesByItsRows := by
  refine ⟨fun s hm hs => exec_transmissionCompletion hm hs, fun s hs hl => ?_⟩
  refine ⟨fun o ho hf => ?_, fun ho hf => ?_, fun o ho hv hlen => ?_, fun ho hf hv => ?_, fun ho hf => ?_⟩
  · rw [choices_eq, arbitrate_out, Event.chooseOutput_of_offer (e := Event.begin s) hs hl hf ho, Event.sendOffer_out]
    exact congrArg (fun l => OutputArbiter.mk l (some (o.frameIn s)) 0) hf
  · rw [choices_eq, Event.chooseOutput_of_idle (e := Event.begin s) hs hl hf ho]
    exact ⟨arbitrate_out s, arbitrate_orig s, arbitrate_pq s⟩
  · cases hf : s.out.fifo with
    | nil => simp [hf] at hlen
    | cons f rest =>
      have hlen' : rest.length + 1 ≤ 2 := by
        rw [hf, List.length_cons] at hlen
        omega
      rw [choices_eq, arbitrate_out, Event.chooseOutput_starved (e := Event.begin s) hs hl hf ho ⟨hv, hlen'⟩,
        Event.sendOffer_out]
      exact congrArg (fun l => OutputArbiter.mk l (some (o.frameIn s)) 0) hf
  · cases hf' : s.out.fifo with
    | nil => exact absurd hf' hf
    | cons f rest =>
      have hv' : ¬((Event.begin s).out.starvation = 8 ∧ rest.length + 1 ≤ 2) := fun ⟨h8, hlen⟩ => by
        rw [hf', List.length_cons] at hv
        exact hv.elim (fun h => h h8) fun h => by omega
      rw [choices_eq, Event.chooseOutput_transit (e := Event.begin s) hs hl hf' hv' ho]
      exact ⟨arbitrate_out _, arbitrate_orig _, arbitrate_pq _⟩
  · cases hf' : s.out.fifo with
    | nil => exact absurd hf' hf
    | cons f rest =>
      rw [choices_eq, Event.chooseOutput_transit_alone (e := Event.begin s) hs hl hf' ho]
      exact ⟨arbitrate_out _, arbitrate_orig _, arbitrate_pq _⟩

/-! ## Offers (R82) -/

section Offers
variable {s : State}

theorem ModeLaw.mode_of_flight (h : ModeLaw s) (hf : s.orig.flight ≠ []) :
    s.node.mode = .active ∨ s.node.mode = .draining := by
  obtain ⟨hoff, -, hjoin, -⟩ := h
  cases hm : s.node.mode with
  | offline => exact absurd (hoff hm).2 hf
  | joining => exact absurd (hjoin hm) hf
  | active => exact .inl rfl
  | draining => exact .inr rfl

theorem originationOffer_announce {r : AnnounceRecord} (ha : s.orig.announce = some r) (hm : s.node.mode = .joining)
    (hr : r.state = .awaitingSend) : originationOffer s = some (.announce r) := by
  simp [originationOffer, announceOffer, ha, hm, hr]

theorem originationOffer_resend (ha : s.orig.announce = none) (hr : s.orig.resend.isSome = true)
    (hb : s.orig.backoff = none) {f : IflEntry} (hf : resendEntry s.orig = some f) :
    originationOffer s = some (.resend f) := by
  simp [originationOffer, announceOffer, ha, hr, hb, hf]

theorem originationOffer_fresh (ha : s.orig.announce = none) (hr : s.orig.resend = none)
    (hm : s.node.mode = .active ∨ s.node.mode = .draining) (hl : s.orig.flight.length < 16) :
    originationOffer s = s.pq.offer.map Offer.fresh := by
  rcases hm with hm | hm <;> simp [originationOffer, announceOffer, ha, hr, hm, hl, Mode.sends, Config.iflCapacity]

/-- The offered entry is the head of the highest class that is not empty (R50, R51). -/
theorem PublishQueue.offer_of_class {q : PublishQueue} {c : PrioClass} {p : PqEntry}
    (hp : (q.classList c).head? = some p) (hc : ∀ c' : PrioClass, c < c' → q.classList c' = []) :
    q.offer = some p ∧ q.dropOffer = q.setClassList c (q.classList c).tail := by
  obtain ⟨rest, hrest⟩ : ∃ rest, q.classList c = p :: rest := by
    cases h : q.classList c with
    | nil => rw [h] at hp; cases hp
    | cons x rest => rw [h] at hp; cases hp; exact ⟨rest, rfl⟩
  rw [hrest]
  obtain ⟨c0, c1, c2, c3, held⟩ := q
  have h3 : c < 3 → c3 = [] := hc 3
  have h2 : c < 2 → c2 = [] := hc 2
  have h1 : c < 1 → c1 = [] := hc 1
  match c with
  | 3 =>
    obtain rfl : c3 = p :: rest := hrest
    exact ⟨rfl, rfl⟩
  | 2 =>
    obtain rfl : c2 = p :: rest := hrest
    obtain rfl := h3 (by decide)
    exact ⟨rfl, rfl⟩
  | 1 =>
    obtain rfl : c1 = p :: rest := hrest
    obtain rfl := h3 (by decide)
    obtain rfl := h2 (by decide)
    exact ⟨rfl, rfl⟩
  | 0 =>
    obtain rfl : c0 = p :: rest := hrest
    obtain rfl := h3 (by decide)
    obtain rfl := h2 (by decide)
    obtain rfl := h1 (by decide)
    exact ⟨rfl, rfl⟩

/-- The position of an entry of the list, found by its sequence (R85). -/
theorem FlightLaw.position (h : FlightLaw s) (i : Fin s.orig.flight.length) :
    flightPosition s.orig.flight s.orig.flight[i].seq = some i.val := by
  obtain ⟨done, todo, hsplit⟩ := (flightLaw_iff s).1 h
  exact (flightPosition_of_numbered hsplit.numbered hsplit.room i.val).2 ⟨i.isLt, rfl⟩

theorem FlightLaw.resendEntry_eq (h : FlightLaw s) (i : Fin s.orig.flight.length)
    (hr : s.orig.resend = some s.orig.flight[i].seq) : resendEntry s.orig = some s.orig.flight[i] := by
  unfold resendEntry
  rw [hr, Option.bind_some, h.position i, Option.bind_some]
  exact List.getElem?_eq_getElem i.isLt

end Offers

/-! ## Commitment (R81, R83, R84) -/

section Commitment
variable {s : State}

theorem sendOffer_resend {f : IflEntry} {i : Nat} (h : flightPosition s.orig.flight f.seq = some i) :
    (Event.begin s).sendOffer (.resend f) = Event.begin ((resendAt i f s).withOut
      { s.out with sending := some (f.frame s.node.nodeId), starvation := 0 }) := by
  have hc : (Event.begin s).commitOffer (.resend f) = (Event.begin (resendAt i f s), f.frame s.node.nodeId) := by
    unfold Event.commitOffer
    dsimp only
    rw [show flightPosition (Event.begin s).orig.flight f.seq = some i from h]
    rfl
  unfold Event.sendOffer
  rw [hc]
  rfl

/-- The state in which the offered entry has departed, before room is looked for. -/
def departed (p : PqEntry) (s : State) : State :=
  (s.withPq s.pq.dropOffer).withOrig
    { s.orig with flight := s.orig.flight ++ [p.depart s.orig.nextSeq s.node.timebase]
                  nextSeq := s.orig.nextSeq + 1 }

theorem sendOffer_departs (p : PqEntry) (s : State) : (Event.begin s).sendOffer (.fresh p) =
    (Event.begin (departed p s)).roomCheck.on
      (startSending ((p.depart s.orig.nextSeq s.node.timebase).frame s.node.nodeId) 0) := rfl

/-! ### Room for a held request (R45) -/

theorem Event.roomCheck_of_full {e : Event} (h : ∀ r ∈ e.pq.held, ¬e.pq.hasRoom r.cls = true) : e.roomCheck = e := by
  unfold Event.roomCheck
  split
  next r hr => exact if_neg fun hn => h r hr hn.2
  next => rfl

theorem Event.roomCheck_of_room {e : Event} {r : CaptureRequest} (hr : e.pq.held = some r)
    (hh : e.host.hold = .publishHold) (hroom : e.pq.hasRoom r.cls = true) :
    e.roomCheck = (e.on fun s => endPublishHold .publish (heldWindow s) s).createEntry r := by
  unfold Event.roomCheck
  rw [hr]
  exact if_pos ⟨hh, hroom⟩

/-- The Publish Queue in which a held request has been captured as a new entry (R41, R45). -/
def PublishQueue.captured (q : PublishQueue) (r : CaptureRequest) : PublishQueue :=
  { q.setClassList r.cls (q.classList r.cls ++ [r.newEntry]) with held := none }

/-- The state in which a held request has been captured. -/
def roomMade (r : CaptureRequest) (s : State) : State :=
  (((endPublishHold .publish (heldWindow s) s).withPq
      (s.pq.captured r)).withWindows
    (s.windows.set r.window { s.windows[r.window] with updates := s.windows[r.window].updates + 1 }))

theorem PublishQueue.setClassList_withHeld (q : PublishQueue) (h : Option CaptureRequest) (c : PrioClass) (l : List PqEntry) :
    ({ q with held := h } : PublishQueue).setClassList c l = { q.setClassList c l with held := h } := by
  match c with
  | 0 | 1 | 2 | 3 => rfl

theorem PublishQueue.classList_withHeld (q : PublishQueue) (h : Option CaptureRequest) (c : PrioClass) :
    ({ q with held := h } : PublishQueue).classList c = q.classList c := by
  match c with
  | 0 | 1 | 2 | 3 => rfl

theorem roomMade_eq (r : CaptureRequest) (e : Event) :
    ((e.on fun s => endPublishHold .publish (heldWindow s) s).createEntry r).toState = roomMade r e.toState := by
  show (((endPublishHold .publish (heldWindow e.toState) e.toState).withPq
    (({ e.pq with held := none } : PublishQueue).setClassList r.cls
      (({ e.pq with held := none } : PublishQueue).classList r.cls ++ [r.newEntry]))).withWindows _) = _
  rw [PublishQueue.setClassList_withHeld, PublishQueue.classList_withHeld]
  rfl

/-- A hold that ends with a memory request, its class changed and its window kept. -/
theorem endPublishHold_host (cls : HostClass) (s : State) : (endPublishHold cls (heldWindow s) s).host =
    { s.host with path := .requesting, hold := .noHold, cycle := s.host.cycle.map fun c => { c with cls := cls } } := by
  show ({ s.host with
    path := .requesting, hold := .noHold
    cycle := s.host.cycle.map fun c => { c with cls := cls, window := heldWindow s } } : HostPath) = _
  cases hc : s.host.cycle <;> simp [heldWindow, hc]

theorem arbitrate_settled {u : State} (hs : Settled s) (hh : u.host = s.host) (hq : u.aq = s.aq) (ha : u.arb = s.arb) :
    (arbitrate u).host = s.host ∧ (arbitrate u).arb = s.arb := by
  obtain ⟨h1, -, h3⟩ := arbitrate_congr hh hq ha
  rw [h1, h3, arbitrate_still hs.2.2]
  exact ⟨rfl, rfl⟩

/-- A request made from a hold is granted at once by a free port. -/
theorem releasedAs_of_arbitrate {cls : HostClass} {u t : State} (hu : u.host = { s.host with
      path := .requesting, hold := .noHold, cycle := s.host.cycle.map fun c => { c with cls := cls } })
    (ha : u.arb = s.arb) (hq : s.arb.cycle = none → u.aq.entries = []) (hc : s.host.cycle.isSome = true)
    (hth : t.host = (arbitrate u).host) (hta : t.arb = (arbitrate u).arb) : ReleasedAs cls s t := by
  obtain ⟨c, hc⟩ := Option.isSome_iff_exists.1 hc
  obtain ⟨-, h2, h3, h4⟩ := arbitrate_posted (s := u) (r := { c with cls := cls }) (fun h => hq (ha ▸ h))
    (by rw [hu]) (by rw [hu, hc]; rfl) (by rw [hu]; exact fun h => nomatch h)
  rw [ha] at h2 h3 h4
  refine ⟨by rw [hth, h2, hu], by rw [hth, h2, hu], by rw [hth, h2], fun h => by rw [hta]; exact h3 h,
    fun h => by rw [hta]; exact h4 h⟩

end Commitment

/-- The state in which a transmission has completed. -/
def lineFree (s : State) : State := s.withOut { s.out with sending := none }

/-- Settles O33: the three offers of R82 in turn, and what the departure of a new entry does for a held write. -/
theorem chosenOffersAreCommitted : Obligations.ChosenOffersAreCommitted := by
  intro s hm hs hl hf hhost hmode hflight _
  have hexec : exec .transmissionCompletion s = .next (choices (lineFree s)) := exec_transmissionCompletion hm hs
  have hchosen {o : Offer} (ho : originationOffer s = some o) : choices (lineFree s) =
      arbitrate ((Event.begin (lineFree s)).sendOffer o).toState := by
    rw [choices_eq, Event.chooseOutput_of_offer (e := Event.begin (lineFree s)) rfl hl hf
      ((originationOffer_congr rfl rfl rfl).trans ho)]
  refine ⟨fun r hr hst => ⟨_, hexec, ?_⟩, fun i hi hb => ⟨_, hexec, ?_⟩, fun c hres hm' hlen hc p hp => ⟨_, hexec, ?_⟩⟩
  · rw [hchosen (originationOffer_announce hr (hmode.mode_of_announce hr) hst)]
    exact ⟨arbitrate_orig _, congrArg _ (arbitrate_out _), arbitrate_pq _, arbitrate_windows _⟩
  · have hne : s.orig.flight ≠ [] := List.length_pos_iff.1 (Nat.zero_lt_of_lt i.isLt)
    have hann : s.orig.announce = none := hmode.announce_none fun h =>
      (hmode.mode_of_flight hne).elim (fun h' => by cases h.symm.trans h') fun h' => by cases h.symm.trans h'
    rw [hchosen (originationOffer_resend hann (by rw [hi]; rfl) hb (hflight.resendEntry_eq i hi)),
      sendOffer_resend (s := lineFree s) (hflight.position i)]
    exact ⟨arbitrate_orig _, congrArg _ (arbitrate_out _), arbitrate_pq _, arbitrate_windows _⟩
  · obtain ⟨hoffer, hdrop⟩ := PublishQueue.offer_of_class hp hc
    have hann : s.orig.announce = none := hmode.announce_none fun h =>
      hm'.elim (fun h' => by cases h.symm.trans h') fun h' => by cases h.symm.trans h'
    have ho : originationOffer s = some (.fresh p) := by
      rw [originationOffer_fresh hann hres hm' hlen, hoffer]
      rfl
    rw [hchosen ho, sendOffer_departs]
    have hleft : (departed p (lineFree s)).pq = s.pq.setClassList c (s.pq.classList c).tail :=
      hdrop
    have hheld : (departed p (lineFree s)).pq.held = s.pq.held := by
      rw [hleft, PublishQueue.setClassList_held]
    refine ⟨?_, ?_, fun hn => ?_, fun r hr => ⟨fun hn => ?_, fun hroom => ?_⟩⟩
    · rw [arbitrate_orig]
      exact Event.roomCheck_orig _
    · rw [arbitrate_out]
      rfl
    · rw [Event.roomCheck_of_not_held hn, arbitrate_pq, arbitrate_windows]
      exact ⟨hdrop, rfl⟩
    · rw [Event.roomCheck_of_full (fun r' hr' => ?_)]
      · rw [arbitrate_pq, arbitrate_windows]
        refine ⟨hdrop, rfl, fun hset => ?_⟩
        exact arbitrate_settled hset rfl rfl rfl
      · cases (hheld.symm.trans hr').symm.trans hr
        rw [PublishQueue.hasRoom_iff, show (Event.begin (departed p (lineFree s))).pq = _ from hleft]
        exact hn
    · have hh : s.host.hold = .publishHold := by
        obtain ⟨-, -, -, -, -, hiff, -⟩ := hhost
        exact hiff.1 (by rw [hr]; rfl)
      obtain ⟨k, hk, -⟩ := hhost.cycle_of_hold (by rw [hh]; decide)
      rw [Event.roomCheck_of_room (hheld.trans hr) hh
        (PublishQueue.hasRoom_iff.2 (by
          rw [show (Event.begin (departed p (lineFree s))).pq = _ from hleft]
          exact hroom)), Event.on_toState,
        roomMade_eq]
      refine ⟨?_, ?_, fun hset => ?_⟩
      · rw [arbitrate_pq]
        show (departed p (lineFree s)).pq.captured r = _
        rw [hleft]
        rfl
      · rw [arbitrate_windows]
        rfl
      · refine releasedAs_of_arbitrate ?_ ?_ ?_ ?_ rfl rfl
        · exact endPublishHold_host .publish s
        · rfl
        · exact fun ha => (hset.2.2 ha).2
        · rw [hk]
          rfl

end Sys2Proof.Machine
end

section
/-! SUPPORT. No operation of an event looks at how events fall on moments (assumption 25): each one on a state with
other moments is itself, with those moments. -/

namespace Sys2Proof.Machine

/-- An event of a state whose events fall on moments as given. -/
def Event.during (m : List Nat) (e : Event) : Event := e.on fun s => s.withMoments m

section Operations
variable (e : Event) (m : List Nat)

theorem Event.during_ite {p : Prop} [Decidable p] (a b : Event) :
    (if p then a else b).during m = if p then a.during m else b.during m := apply_ite (Event.during m) p a b

theorem State.withMoments_ite {p : Prop} [Decidable p] (a b : State) :
    (if p then a else b).withMoments m = if p then a.withMoments m else b.withMoments m :=
  apply_ite (fun s => State.withMoments s m) p a b

/-! ## Flags and queues (R21, R39 to R54) -/

theorem Event.requestDiverged_during (i : WinIdx) :
    (e.during m).requestDiverged i = (e.requestDiverged i).during m := by
  unfold Event.requestDiverged
  dsimp only
  rw [Event.during_ite]
  rfl

theorem Event.requestStale_during (i : WinIdx) :
    (e.during m).requestStale i = (e.requestStale i).during m := by
  unfold Event.requestStale
  dsimp only
  rw [Event.during_ite]
  rfl

theorem Event.requestDivergedAll_during (is : List WinIdx) :
    (e.during m).requestDivergedAll is = (e.requestDivergedAll is).during m := by
  unfold Event.requestDivergedAll
  induction is generalizing e with
  | nil => rfl
  | cons i is ih =>
    rw [List.foldl_cons, List.foldl_cons, Event.requestDiverged_during]
    exact ih _

theorem Event.requestStaleAll_during (is : List WinIdx) :
    (e.during m).requestStaleAll is = (e.requestStaleAll is).during m := by
  unfold Event.requestStaleAll
  induction is generalizing e with
  | nil => rfl
  | cons i is ih =>
    rw [List.foldl_cons, List.foldl_cons, Event.requestStale_during]
    exact ih _

theorem Event.demoteUnpublished_during : (e.during m).demoteUnpublished = e.demoteUnpublished.during m := by
  unfold Event.demoteUnpublished
  rw [Event.during_ite]
  dsimp only
  rw [show heldWindow (e.during m).toState = heldWindow e.toState from rfl]
  cases heldWindow e.toState with
  | none => rfl
  | some i =>
    dsimp only
    rw [← Event.requestDiverged_during]
    rfl

theorem Event.capture_during (r : CaptureRequest) :
    (e.during m).capture r = (e.capture r).map (Event.during m) := by
  have hmap {p : Prop} [Decidable p] (a b : Option Event) :
      (if p then a else b).map (Event.during m) = if p then a.map (Event.during m) else b.map (Event.during m) :=
    apply_ite (Option.map (Event.during m)) p a b
  unfold Event.capture
  rw [show (e.during m).pq = e.pq from rfl]
  cases (e.pq.classList r.cls).getLast? with
  | none =>
    dsimp only
    rw [hmap]
    rfl
  | some t =>
    dsimp only
    rw [hmap, hmap]
    rfl

theorem Event.roomCheck_during : (e.during m).roomCheck = e.roomCheck.during m := by
  unfold Event.roomCheck
  rw [show (e.during m).pq = e.pq from rfl]
  cases e.pq.held with
  | none => rfl
  | some r =>
    dsimp only
    rw [Event.during_ite]
    rfl

theorem Event.discardPq_during : (e.during m).discardPq = e.discardPq.during m := by
  unfold Event.discardPq
  rw [← Event.requestDivergedAll_during]
  rfl

theorem Event.discardFlight_during : (e.during m).discardFlight = e.discardFlight.during m := by
  unfold Event.discardFlight
  rw [← Event.requestDivergedAll_during]
  rfl

/-! ## The Host Path and memory (R2, R46, R129, R132) -/

theorem Event.expirePublishHold_during : (e.during m).expirePublishHold = e.expirePublishHold.during m := by
  unfold Event.expirePublishHold
  rw [show (e.during m).pq = e.pq from rfl, show (e.during m).host = e.host from rfl]
  cases e.host.cycle with
  | none => rfl
  | some c =>
    cases e.pq.held with
    | none => rfl
    | some r =>
      dsimp only
      rw [← Event.demoteUnpublished_during]
      rfl

theorem Event.acceptPublish_during (c : HostCycle) (i : WinIdx) :
    (e.during m).acceptPublish c i = (e.acceptPublish c i).during m := by
  unfold Event.acceptPublish
  dsimp only
  rw [show captureRequest (e.during m).toState c i = captureRequest e.toState c i from rfl, Event.capture_during]
  cases e.capture (captureRequest e.toState c i) with
  | some e' => rfl
  | none =>
    dsimp only [Option.map_none]
    rw [Event.during_ite, ← Event.expirePublishHold_during]
    rfl

theorem Event.accept_during (c : HostCycle) : (e.during m).accept c = (e.accept c).during m := by
  unfold Event.accept
  dsimp only
  rw [show classify ((e.during m).on markAccepted).toState c = classify (e.on markAccepted).toState c from rfl]
  obtain ⟨cls, w⟩ := classify (e.on markAccepted).toState c
  have hplain : ((e.during m).on markAccepted).on (acceptPlain c) = ((e.on markAccepted).on (acceptPlain c)).during m := by
    have hp (s : State) : acceptPlain c (s.withMoments m) = (acceptPlain c s).withMoments m := by
      unfold acceptPlain
      dsimp only
      rw [State.withMoments_ite, show (s.withMoments m).aq = s.aq from rfl]
      cases youngestCovering s.aq.entries c.word <;> rfl
    exact congrArg (fun u => ({ toState := u, raised := e.raised } : Event)) (hp (markAccepted e.toState))
  cases w with
  | none => cases cls <;> exact hplain
  | some i =>
    cases cls with
    | plain => exact hplain
    | publish => exact Event.acceptPublish_during (e.on markAccepted) m c i
    | unpublished =>
      dsimp only
      rw [← Event.requestDiverged_during]
      rfl
    | localWrite =>
      dsimp only
      rw [← Event.requestStale_during]
      rfl
    | refused => rfl

theorem Event.acceptPresented_during : (e.during m).acceptPresented = e.acceptPresented.during m := by
  unfold Event.acceptPresented
  rw [show (e.during m).host = e.host from rfl]
  cases e.host.presented with
  | none => rfl
  | some c =>
    dsimp only
    rw [Event.during_ite, ← Event.accept_during]
    rfl

theorem Event.applyWordDone_during : (e.during m).applyWordDone = e.applyWordDone.during m := by
  unfold Event.applyWordDone
  rw [show (e.during m).aq = e.aq from rfl]
  cases e.aq.entries with
  | nil => rfl
  | cons a rest =>
    dsimp only
    rw [Event.during_ite]
    cases nextPresent a.mask a.next with
    | some k => rfl
    | none =>
      have hr (s : State) : releaseReadHold (s.withMoments m) = (releaseReadHold s).withMoments m := by
        unfold releaseReadHold
        rw [State.withMoments_ite]
        rfl
      dsimp only
      refine if_congr Iff.rfl ?_ rfl
      exact congrArg (fun u => ({ toState := u, raised := e.raised } : Event))
        (hr ((e.on fun s => s.withAq { s.aq with entries := rest }).advanceUpdates a.window).toState)

theorem memoryServed_during (c : MemCycle) :
    (e.during m).on (memoryServed c) = (e.on (memoryServed c)).during m := by
  have hs (s : State) : memoryServed c (s.withMoments m) = (memoryServed c s).withMoments m := by
    unfold memoryServed
    cases c.dir <;> rfl
  exact congrArg (fun u => ({ toState := u, raised := e.raised } : Event)) (hs e.toState)

theorem Event.memoryDone_during (c : MemCycle) (sd : Word) :
    (e.during m).memoryDone c sd = (e.memoryDone c sd).during m := by
  cases hg : c.grant with
  | host =>
    rw [Event.memoryDone_of_host _ sd hg, Event.memoryDone_of_host _ sd hg, ← Event.acceptPresented_during,
      memoryServed_during]
    rfl
  | apply =>
    rw [Event.memoryDone_of_apply _ sd hg, Event.memoryDone_of_apply _ sd hg, ← Event.applyWordDone_during,
      memoryServed_during]

/-! ## Node Control and origination (R85 to R97, R146 to R154) -/

theorem Event.isolate_during : (e.during m).isolate = e.isolate.during m := by
  rw [Event.isolate_eq, Event.isolate_eq, show isolating (e.during m) = (isolating e).during m from rfl,
    Event.discardPq_during, Event.demoteUnpublished_during, Event.discardFlight_during]
  rfl

theorem Event.evaluateLevel_during : (e.during m).evaluateLevel = e.evaluateLevel.during m := by
  unfold Event.evaluateLevel
  dsimp only
  rw [Event.during_ite, Event.during_ite, Event.during_ite, ← Event.isolate_during]
  rfl

theorem Event.reportUnder_during (mode : Mode) (r : Report) :
    (e.during m).reportUnder mode r = (e.reportUnder mode r).during m := by
  unfold Event.reportUnder
  rw [Event.during_ite, ← Event.evaluateLevel_during]
  rfl

theorem Event.report_during (r : Report) : (e.during m).report r = (e.report r).during m :=
  e.reportUnder_during m e.node.mode r

theorem Event.drainCheck_during : (e.during m).drainCheck = e.drainCheck.during m := by
  unfold Event.drainCheck
  rw [Event.during_ite]
  rfl

theorem Event.giveUp_during (q : Byte) : (e.during m).giveUp q = (e.giveUp q).during m := by
  unfold Event.giveUp
  dsimp only
  rw [show (e.during m).raise (.deliveryFailed q) = (e.raise (.deliveryFailed q)).during m from rfl,
    Event.discardFlight_during,
    show ((e.raise (.deliveryFailed q)).discardFlight.during m).node = (e.raise (.deliveryFailed q)).discardFlight.node
      from rfl]
  cases (e.raise (.deliveryFailed q)).discardFlight.node.mode with
  | active => rfl
  | draining =>
    dsimp only
    rw [Event.discardPq_during]
    rfl
  | joining => rfl
  | offline => rfl

theorem Event.goBack_during (objection : Bool) : (e.during m).goBack objection = (e.goBack objection).during m := by
  unfold Event.goBack
  rw [show (e.during m).orig = e.orig from rfl]
  cases e.orig.flight with
  | nil => rfl
  | cons h rest =>
    dsimp only
    rw [Event.during_ite, ← Event.giveUp_during]
    rfl

theorem Event.goBackReported_during (objection : Bool) (r : Report) :
    (e.during m).goBackReported objection r = (e.goBackReported objection r).during m := by
  unfold Event.goBackReported
  rw [Event.goBack_during, Event.reportUnder_during]
  rfl

theorem Event.retire_during : (e.during m).retire = e.retire.during m := by
  unfold Event.retire
  rw [← Event.drainCheck_during, ← Event.report_during]
  rfl

theorem Event.updateReturned_during (f : Frame) : (e.during m).updateReturned f = (e.updateReturned f).during m := by
  unfold Event.updateReturned
  rw [show (e.during m).orig = e.orig from rfl]
  cases (flightPosition e.orig.flight f.seq).bind fun i => (e.orig.flight[i]?).map fun x => (i, x) with
  | none => rfl
  | some p =>
    dsimp only
    rw [Event.during_ite, Event.during_ite, Event.during_ite, ← Event.goBackReported_during, ← Event.retire_during,
      ← Event.goBackReported_during]
    rfl

theorem Event.announceReturned_during (f : Frame) :
    (e.during m).announceReturned f = (e.announceReturned f).during m := by
  unfold Event.announceReturned
  rw [show (e.during m).orig = e.orig from rfl]
  cases e.orig.announce with
  | none => rfl
  | some r =>
    dsimp only
    rw [Event.during_ite]
    rfl

theorem Event.returned_during (f : Frame) : (e.during m).returned f = (e.returned f).during m := by
  unfold Event.returned
  cases f.body with
  | announce => exact e.announceReturned_during m f
  | update ch span mask words => exact e.updateReturned_during m f

/-! ## Reception (R102 to R120) -/

theorem Event.forward_during (f : Frame) (nak : Bool) : (e.during m).forward f nak = (e.forward f nak).during m := by
  unfold Event.forward
  rw [Event.during_ite, ← Event.report_during]
  rfl

theorem Event.inOrder_during (f : Frame) (ch : Byte) (span : SpanOffset) (mask : SpanMask) (words : List Word) :
    (e.during m).inOrder f ch span mask words =
      ((e.inOrder f ch span mask words).1.during m, (e.inOrder f ch span mask words).2) := by
  unfold Event.inOrder
  rw [show (e.during m).windows = e.windows from rfl, show (e.during m).node = e.node from rfl,
    show applyRoom (e.during m).toState = applyRoom e.toState from rfl]
  cases channelLookup e.windows ch with
  | none => rfl
  | some i =>
    dsimp only
    cases e.windows[i].kind with
    | owned => rfl
    | mirror =>
      dsimp only
      split
      · rfl
      split
      · rfl
      split
      · rfl
      · rw [Event.requestStale_during]
        rfl

theorem Event.updateArrived_during (f : Frame) (ch : Byte) (span : SpanOffset) (mask : SpanMask) (words : List Word) :
    (e.during m).updateArrived f ch span mask words =
      ((e.updateArrived f ch span mask words).1.during m, (e.updateArrived f ch span mask words).2) := by
  unfold Event.updateArrived
  dsimp only
  rw [show (e.during m).sources = e.sources from rfl]
  split
  · exact Event.inOrder_during ((e.on (updateSource f.source fun x => x.rebase f.seq)).raise (.sourceAdopted f.source f.seq)) m ..
  split
  · exact e.inOrder_during m ..
  split
  · rw [show ((e.during m).on (updateSource f.source SeqEntry.countGap)).node = e.node from rfl,
      show (e.on (updateSource f.source SeqEntry.countGap)).node = e.node from rfl]
    split
    · rfl
    · rw [← Event.inOrder_during]
      have hs : ((e.during m).on (updateSource f.source SeqEntry.countGap)).requestStaleAll
          (enabledMirrors ((e.during m).on (updateSource f.source SeqEntry.countGap)).windows) =
          ((e.on (updateSource f.source SeqEntry.countGap)).requestStaleAll
            (enabledMirrors (e.on (updateSource f.source SeqEntry.countGap)).windows)).during m :=
        Event.requestStaleAll_during (e.on (updateSource f.source SeqEntry.countGap)) m _
      rw [hs]
      rfl
  · rfl

theorem Event.goodArrival_during (f : Frame) : (e.during m).goodArrival f = (e.goodArrival f).during m := by
  unfold Event.goodArrival
  rw [Event.during_ite, Event.during_ite, Event.during_ite, ← Event.returned_during, ← Event.forward_during]
  refine if_congr Iff.rfl rfl (if_congr Iff.rfl rfl (if_congr Iff.rfl rfl ?_))
  cases f.body with
  | announce =>
    dsimp only
    rw [← Event.forward_during]
    rfl
  | update ch span mask words =>
    dsimp only
    rw [Event.updateArrived_during, ← Event.forward_during]

theorem Event.receive_during (bytes : List Byte) : (e.during m).receive bytes = (e.receive bytes).during m := by
  unfold Event.receive
  cases parseFrame bytes with
  | none => exact e.report_during m .badFrame
  | some f =>
    dsimp only
    rw [Event.report_during, Event.goodArrival_during]

/-! ## The inbound link (R58 to R64) -/

theorem Event.cutOff_during : (e.during m).cutOff = e.cutOff.during m := by
  unfold Event.cutOff
  rw [Event.during_ite, ← Event.report_during]
  rfl

theorem Event.validInUp_during (sym : Symbol) : (e.during m).validInUp sym = (e.validInUp sym).during m := by
  have hon : (e.during m).on (fun s => s.withLink { s.link with invalidRun := 0 }) =
      (e.on fun s => s.withLink { s.link with invalidRun := 0 }).during m := rfl
  unfold Event.validInUp
  dsimp only
  rw [hon]
  generalize e.on (fun s => s.withLink { s.link with invalidRun := 0 }) = e'
  rw [show (e'.during m).link = e'.link from rfl]
  cases e'.link.assembly with
  | none => cases sym <;> rfl
  | some bs =>
    cases sym with
    | startFrame =>
      dsimp only
      rw [Event.cutOff_during]
      rfl
    | idle => exact e'.cutOff_during m
    | endFrame => exact Event.receive_during (e'.on fun s => s.withLink { s.link with assembly := none, skip := true }) m bs
    | data v =>
      dsimp only
      rw [Event.during_ite, ← Event.cutOff_during]
      rfl
    | invalid => rfl

theorem Event.invalidInUp_during : (e.during m).invalidInUp = e.invalidInUp.during m := by
  unfold Event.invalidInUp
  dsimp only
  rw [Event.during_ite, Event.cutOff_during]
  rfl

theorem Event.symbol_during (sym : Symbol) : (e.during m).symbol sym = (e.symbol sym).during m := by
  unfold Event.symbol
  rw [show (e.during m).link = e.link from rfl]
  cases e.link.inbound with
  | noSignal => rfl
  | aligning =>
    dsimp only
    rw [Event.during_ite, Event.during_ite]
    rfl
  | up =>
    dsimp only
    rw [Event.during_ite, ← Event.invalidInUp_during, ← Event.validInUp_during]

theorem Event.loseSignal_during : (e.during m).loseSignal = e.loseSignal.during m := by
  rw [Event.loseSignal_eq, Event.loseSignal_eq, Event.during_ite, Event.cutOff_during]
  rfl

/-! ## The end of an event -/

theorem appendIncident_withMoments (s : State) (o : Occurrence) :
    appendIncident (s.withMoments m) o = (appendIncident s o).withMoments m := by
  unfold appendIncident
  dsimp only
  rw [State.withMoments_ite]
  rfl

theorem Event.commit_during : (e.during m).commit = e.commit.withMoments m := by
  have hfold (l : List Occurrence) (s : State) :
      l.foldl appendIncident (s.withMoments m) = (l.foldl appendIncident s).withMoments m := by
    induction l generalizing s with
    | nil => rfl
    | cons o l ih =>
      rw [List.foldl_cons, List.foldl_cons, appendIncident_withMoments]
      exact ih _
  unfold Event.commit
  rw [State.withMoments_ite, ← hfold]
  rfl

end Operations

end Sys2Proof.Machine
end

section
/-! SUPPORT. A command and the moment its event falls on (assumption 25), and the statement about the arbiters. -/

namespace Sys2Proof.Machine

/-! ## Choices and the Management Port -/

section Port
variable (e : Event) (s : State) (g : ManagementPort)

/-- An event of a state with another Management Port. -/
def Event.withPort (e : Event) (g : ManagementPort) : Event := e.on fun s => s.withMgmt g

theorem Event.withPort_ite {p : Prop} [Decidable p] (a b : Event) :
    (if p then a else b).withPort g = if p then a.withPort g else b.withPort g :=
  apply_ite (fun e => Event.withPort e g) p a b

theorem Event.roomCheck_withPort : (e.withPort g).roomCheck = e.roomCheck.withPort g := by
  unfold Event.roomCheck
  rw [show (e.withPort g).pq = e.pq from rfl]
  cases e.pq.held with
  | none => rfl
  | some r =>
    dsimp only
    rw [Event.withPort_ite]
    rfl

theorem Event.sendOffer_withPort (o : Offer) : (e.withPort g).sendOffer o = (e.sendOffer o).withPort g := by
  cases o with
  | announce r => rfl
  | resend f =>
    simp only [Event.sendOffer, Event.commitOffer]
    rw [show (e.withPort g).orig = e.orig from rfl]
    cases flightPosition e.orig.flight f.seq <;> rfl
  | fresh p =>
    unfold Event.sendOffer Event.commitOffer Event.departEntry
    dsimp only
    rw [show (e.withPort g).orig = e.orig from rfl, show (e.withPort g).node = e.node from rfl]
    exact congrArg (fun x : Event => x.on (startSending _ 0)) (Event.roomCheck_withPort
      (e.on fun s => (s.withPq s.pq.dropOffer).withOrig
        { s.orig with flight := s.orig.flight ++ [p.depart s.orig.nextSeq s.node.timebase]
                      nextSeq := s.orig.nextSeq + 1 }) g)

theorem Event.chooseOutput_withPort : (e.withPort g).chooseOutput = e.chooseOutput.withPort g := by
  unfold Event.chooseOutput
  rw [Event.withPort_ite, show (e.withPort g).out = e.out from rfl, show (e.withPort g).link = e.link from rfl,
    show originationOffer (e.withPort g).toState = originationOffer e.toState from rfl]
  refine if_congr Iff.rfl rfl ?_
  cases e.out.fifo with
  | nil =>
    cases originationOffer e.toState with
    | none => rfl
    | some o => exact e.sendOffer_withPort g o
  | cons f rest =>
    cases originationOffer e.toState with
    | none => rfl
    | some o =>
      dsimp only
      rw [Event.withPort_ite, ← Event.sendOffer_withPort]
      rfl

theorem arbitrate_withMgmt : arbitrate (s.withMgmt g) = (arbitrate s).withMgmt g := by
  unfold arbitrate
  rw [show arbiterChoice (s.withMgmt g) = arbiterChoice s from rfl, show (s.withMgmt g).arb = s.arb from rfl]
  cases s.arb.cycle with
  | some c => rfl
  | none => cases arbiterChoice s with
    | none => rfl
    | some c => cases hg : c.grant <;> simp [grantCycle, hg] <;> rfl

theorem choices_withMgmt : choices (s.withMgmt g) = (choices s).withMgmt g := by
  rw [choices_eq, choices_eq, ← arbitrate_withMgmt, show Event.begin (s.withMgmt g) = (Event.begin s).withPort g from rfl,
    Event.chooseOutput_withPort]
  rfl

theorem choices_responding (c : Command) (args response : List Byte) :
    choices (s.responding c args response) = (choices s).responding c args response := by
  unfold State.responding
  rw [choices_withMgmt, (choices_stands s).mgmt]

end Port

/-! ## Events -/

section Events
variable {s : State} {e : Event}

theorem runBegins_withMoments (s : State) (m : List Nat) :
    runBegins (s.withMoments m) = (runBegins s).withMoments m := by
  unfold runBegins
  rw [State.withMoments_ite, ← Event.commit_during, ← Event.cutOff_during]
  rfl

theorem map_ite {p : Prop} [Decidable p] {e f : Event} {m : List Nat} (h : p → f = e.during m) :
    (if p then some f else none) = (if p then some e else none).map (Event.during m) := by
  split
  next hp => rw [h hp]; rfl
  next => rfl

/-- The event of a command does not depend on how events fall on moments. -/
theorem broughtEvent_withMoments (c : Instr) (s : State) (m : List Nat) :
    broughtEvent c (s.withMoments m) = (broughtEvent c s).map (Event.during m) := by
  cases c with
  | hostCycleAcceptance addr dir lanes data =>
    exact congrArg some (Event.acceptPresented_during ((Event.begin s).on (presentCycle ⟨addr, dir, lanes, data⟩)) m)
  | refusedWriteCompletion =>
    exact map_ite fun _ => Event.acceptPresented_during ((Event.begin s).on signalRefused) m
  | memoryCycleCompletion sd =>
    rw [broughtEvent_memoryCycleCompletion, broughtEvent_memoryCycleCompletion, show (s.withMoments m).arb = s.arb from rfl]
    cases s.arb.cycle with
    | none => rfl
    | some x => exact congrArg some (Event.memoryDone_during (Event.begin s) m x sd)
  | publishHoldExpiry => exact map_ite fun _ => Event.expirePublishHold_during (Event.begin s) m
  | lossOfSignal => exact map_ite fun _ => Event.loseSignal_during (Event.begin s) m
  | linkUp => exact map_ite fun _ => rfl
  | alignmentLost =>
    refine map_ite fun _ => ?_
    rw [runBegins_withMoments]
    rfl
  | frameCutOff sym =>
    by_cases h : s.resetN ∧ s.link.inbound = .up ∧ s.link.assembly.isSome
    · cases sym with
      | startFrame =>
        rw [show broughtEvent (.frameCutOff .startFrame) s = some _ from if_pos h,
          show broughtEvent (.frameCutOff .startFrame) (s.withMoments m) = some _ from if_pos h]
        exact congrArg some (Event.validInUp_during ((Event.begin s).on stampTransition) m _)
      | idle =>
        rw [show broughtEvent (.frameCutOff .idle) s = some _ from if_pos h,
          show broughtEvent (.frameCutOff .idle) (s.withMoments m) = some _ from if_pos h]
        exact congrArg some (Event.validInUp_during ((Event.begin s).on stampTransition) m _)
      | data v =>
        rw [show broughtEvent (.frameCutOff (.data v)) s = some _ from if_pos h,
          show broughtEvent (.frameCutOff (.data v)) (s.withMoments m) = some _ from if_pos h]
        exact congrArg some (Event.cutOff_during
          (((Event.begin s).on stampTransition).on fun s => s.withLink { s.link with invalidRun := 0 }) m)
      | invalid =>
        rw [show broughtEvent (.frameCutOff .invalid) s = some _ from if_pos h,
          show broughtEvent (.frameCutOff .invalid) (s.withMoments m) = some _ from if_pos h]
        exact congrArg some (Event.invalidInUp_during (Event.begin s) m)
      | endFrame =>
        rw [show broughtEvent (.frameCutOff .endFrame) s = none from if_pos h,
          show broughtEvent (.frameCutOff .endFrame) (s.withMoments m) = none from if_pos h]
        rfl
    · rw [show broughtEvent (.frameCutOff sym) s = none from if_neg h,
        show broughtEvent (.frameCutOff sym) (s.withMoments m) = none from if_neg h]
      rfl
  | frameArrival bytes =>
    exact map_ite fun _ => Event.receive_during ((((Event.begin s).on stampTransition).on fun s =>
      s.withLink { s.link with invalidRun := 0 }).on fun s => s.withLink { s.link with assembly := none, skip := true }) m bytes
  | transmissionCompletion => exact map_ite fun _ => rfl
  | returnTimerExpiry => exact map_ite fun _ => Event.goBackReported_during (Event.begin s) m false .timerExpiry
  | announceTimerExpiry => exact map_ite fun _ => Event.report_during ((Event.begin s).on retryAnnounce) m .timerExpiry
  | backoffExpiry => exact map_ite fun _ => rfl
  | symbolReceived group =>
    refine map_ite fun _ => ?_
    rw [← Event.symbol_during]
    cases groupHasTransition group <;> rfl
  | hardReset => exact map_ite fun _ => rfl
  | resetRelease straps =>
    rw [broughtEvent_resetRelease, broughtEvent_resetRelease, show (s.withMoments m).resetN = s.resetN from rfl]
    cases s.resetN with
    | true => rfl
    | false => exact congrArg some (Event.acceptPresented_during ((Event.begin s).on (leaveHardReset straps)) m)
  | _ => rfl

/-- An event that another of its moment follows leaves the choices to it (R73, R133). -/
theorem Event.finish_during_shared (e : Event) (k : Nat) (later : List Nat) :
    (e.during ((k + 1) :: later)).finish = e.commit.withMoments (k :: later) := by
  rw [Event.finish_of_shared _ rfl, Event.commit_during]
  rfl

theorem Event.finish_during_last (e : Event) (later : List Nat) :
    (e.during (0 :: later)).finish = (choices e.commit).withMoments later := by
  rw [Event.finish_of_last _ rfl, Event.commit_during, ← choices_withMoments]
  rfl

end Events

/-- What a step of a command is in its moment: it brings no choice about, or it is an event's effect with the choices
after it, which the other events of its moment leave to the last. -/
def TimedStep (c : Instr) (s t : State) : Prop :=
  (∀ m : List Nat, exec c (s.withMoments m) = .next (t.withMoments m)) ∨
    ∃ u : State, t = choices u ∧ ∀ (k : Nat) (later : List Nat),
      exec c (s.withMoments ((k + 1) :: later)) = .next (u.withMoments (k :: later)) ∧
      exec c (s.withMoments (0 :: later)) = .next (t.withMoments later)

/-! ## Commands without an event, and management commands -/

/-- What a command makes of a state: no choice, or an event's effect with the choices after it. -/
def Timed (F : State → State) (s : State) : Prop :=
  (∀ m : List Nat, F (s.withMoments m) = (F s).withMoments m) ∨
    ∃ u : State, F s = choices u ∧ ∀ (k : Nat) (later : List Nat),
      F (s.withMoments ((k + 1) :: later)) = u.withMoments (k :: later) ∧
      F (s.withMoments (0 :: later)) = (F s).withMoments later

section Commands
variable {s : State}

theorem withIndex_withMoments (n : Byte) (s : State) (m : List Nat) (f g : Fin 16 → State × List Byte)
    (h : ∀ i, g i = ((f i).1.withMoments m, (f i).2)) :
    withIndex n (s.withMoments m) g = ((withIndex n s f).1.withMoments m, (withIndex n s f).2) := by
  unfold withIndex
  split
  · exact h _
  · rfl

theorem softReset_eq (e : Event) :
    e.softReset = { toState := softRest (queuesDiscarded e).toState, raised := [] } := rfl

theorem queuesDiscarded_during (e : Event) (m : List Nat) :
    queuesDiscarded (e.during m) = (queuesDiscarded e).during m := by
  unfold queuesDiscarded
  rw [Event.demoteUnpublished_during, Event.discardPq_during, Event.discardFlight_during]

theorem softRest_withMoments (u : State) (m : List Nat) : softRest (u.withMoments m) = (softRest u).withMoments m := by
  have hv : voidWaiting (fun _ => true) (zeroUpdates (softResetOrigination (u.withMoments m))) =
      (voidWaiting (fun _ => true) (zeroUpdates (softResetOrigination u))).withMoments m := by
    unfold voidWaiting releaseReadHold
    rw [State.withMoments_ite]
    rfl
  rw [softRest_eq, softRest_eq, hv]
  rfl

theorem softReset_during (e : Event) (m : List Nat) : (e.during m).softReset = e.softReset.during m := by
  rw [softReset_eq, softReset_eq, queuesDiscarded_during,
    show ((queuesDiscarded e).during m).toState = (queuesDiscarded e).toState.withMoments m from rfl, softRest_withMoments]
  rfl

theorem Command.event_withMoments (c : Command) (args : List Byte) (s : State) (m : List Nat) :
    c.event args (s.withMoments m) = (c.event args s).map (Event.during m) := by
  cases c with
  | softReset =>
    exact congrArg some (softReset_during (Event.begin s) m)
  | disableWindow =>
    simp only [Command.event]
    split
    next hn =>
      refine map_ite fun _ => ?_
      have hd (i : WinIdx) : disabled i (s.withMoments m) = (disabled i s).withMoments m := by
        have hh (u : State) : demoteHeldOn i (u.withMoments m) = (demoteHeldOn i u).withMoments m := by
          unfold demoteHeldOn demotePlain
          rw [State.withMoments_ite, State.withMoments_ite]
          rfl
        have hv (u : State) : voidOfWindow i (u.withMoments m) = (voidOfWindow i u).withMoments m := by
          unfold voidOfWindow voidWaiting releaseReadHold
          rw [State.withMoments_ite, State.withMoments_ite]
          rfl
        show voidOfWindow i (demoteHeldOn i ((disableRecord i s).withMoments m)) = _
        rw [hh, hv]
        rfl
      exact congrArg Event.begin (hd _)
    next => rfl
  | flush =>
    simp only [Command.event]
    split
    next hn =>
      rw [show (s.withMoments m).pq = s.pq from rfl]
      split
      · rfl
      · refine congrArg some ?_
        unfold Event.flushClass
        rw [← Event.drainCheck_during, ← Event.roomCheck_during, ← Event.requestDivergedAll_during]
        rfl
    next => rfl
  | start =>
    simp only [Command.event]
    rw [show (s.withMoments m).node = s.node from rfl, show (s.withMoments m).link = s.link from rfl]
    split
    · rfl
    split <;> rfl
  | stop =>
    simp only [Command.event]
    rw [show (s.withMoments m).node = s.node from rfl]
    cases s.node.mode with
    | active =>
      refine congrArg some ?_
      rw [← Event.drainCheck_during, ← Event.demoteUnpublished_during]
      rfl
    | joining =>
      refine congrArg some ?_
      rw [show Event.begin (s.withMoments m) = (Event.begin s).during m from rfl, Event.discardPq_during,
        Event.demoteUnpublished_during]
      rfl
    | draining => rfl
    | offline => rfl
  | _ => rfl

/-- The effects that are no event, on a state whose events fall on other moments. -/
theorem Command.effect_withMoments (c : Command) (args : List Byte) (s : State) (m : List Nat)
    (h : c ≠ .softReset ∧ c ≠ .disableWindow ∧ c ≠ .flush ∧ c ≠ .start ∧ c ≠ .stop) :
    c.effect args (s.withMoments m) = ((c.effect args s).1.withMoments m, (c.effect args s).2) := by
  obtain ⟨h1, h2, h3, h4, h5⟩ := h
  cases c with
  | softReset => exact absurd rfl h1
  | disableWindow => exact absurd rfl h2
  | flush => exact absurd rfl h3
  | start => exact absurd rfl h4
  | stop => exact absurd rfl h5
  | setParams =>
    simp only [Command.effect, setParamsEffect]
    rw [show (s.withMoments m).node = s.node from rfl]
    split
    · rfl
    split
    · rfl
    split
    · rfl
    split <;> rfl
  | readWindow =>
    unfold Command.effect readWindowEffect
    exact withIndex_withMoments _ s m _ _ fun _ => rfl
  | readSource =>
    unfold Command.effect readSourceEffect
    exact withIndex_withMoments _ s m _ _ fun _ => rfl
  | clearWindow =>
    unfold Command.effect clearWindowEffect
    exact withIndex_withMoments _ s m _ _ fun _ => rfl
  | writeWindow =>
    unfold Command.effect writeWindowEffect
    refine withIndex_withMoments _ s m _ _ fun i => ?_
    rw [show (s.withMoments m).windows = s.windows from rfl]
    split
    · rfl
    cases configuration (argByte args 1) (argByte args 2 ++ argByte args 3 ++ argByte args 4)
      (argByte args 5) (argByte args 6) (argByte args 7) (argByte args 8) (argByte args 9) with
    | none => rfl
    | some w => cases hw : w.aligned <;> simp only [hw] <;> rfl
  | enableWindow =>
    unfold Command.effect enableWindowEffect
    refine withIndex_withMoments _ s m _ _ fun i => ?_
    rw [show (s.withMoments m).windows = s.windows from rfl]
    split
    · rfl
    split
    · rfl
    cases conflictOf s.windows i <;> rfl
  | setEnables =>
    simp only [Command.effect, setEnablesEffect]
    split <;> rfl
  | ackEvents =>
    simp only [Command.effect, ackEventsEffect]
    split <;> rfl
  | _ => rfl

theorem Command.response_withMoments (c : Command) (args : List Byte) (s : State) (m : List Nat) :
    (c.effect args (s.withMoments m)).2 = (c.effect args s).2 := by
  by_cases h : c ≠ .softReset ∧ c ≠ .disableWindow ∧ c ≠ .flush ∧ c ≠ .start ∧ c ≠ .stop
  · rw [Command.effect_withMoments c args s m h]
  cases c with
  | softReset => rfl
  | disableWindow =>
    simp only [Command.effect, disableWindowEffect, withIndex]
    split
    · rw [show (s.withMoments m).windows = s.windows from rfl]
      split <;> rfl
    · rfl
  | flush =>
    simp only [Command.effect, flushEffect]
    split
    · rw [show (s.withMoments m).pq = s.pq from rfl]
      split <;> rfl
    · rfl
  | start =>
    simp only [Command.effect, startEffect]
    rw [show (s.withMoments m).node = s.node from rfl, show (s.withMoments m).link = s.link from rfl]
    split
    · rfl
    split <;> rfl
  | stop =>
    simp only [Command.effect, stopEffect]
    rw [show (s.withMoments m).node = s.node from rfl]
    cases s.node.mode <;> rfl
  | _ => exact absurd ⟨fun h => (nomatch h), fun h => (nomatch h), fun h => (nomatch h), fun h => (nomatch h),
      fun h => (nomatch h)⟩ h

theorem Command.direct_withMoments (c : Command) (args : List Byte) (s : State) (m : List Nat)
    (h : c.event args s = none) : c.direct args (s.withMoments m) = (c.direct args s).withMoments m := by
  by_cases hc : c ≠ .softReset ∧ c ≠ .disableWindow ∧ c ≠ .flush ∧ c ≠ .start ∧ c ≠ .stop
  · have h1 := c.effect_fst args s
    have h2 := c.effect_fst args (s.withMoments m)
    rw [h] at h1
    rw [Command.event_withMoments, h, Command.effect_withMoments c args s m hc] at h2
    rw [show c.direct args (s.withMoments m) = _ from h2.symm, show c.direct args s = _ from h1.symm]
  cases c with
  | softReset | disableWindow | flush | start | stop => rfl
  | _ => exact absurd ⟨fun h => (nomatch h), fun h => (nomatch h), fun h => (nomatch h), fun h => (nomatch h),
      fun h => (nomatch h)⟩ hc

theorem executeCommand_responding (c : Command) (args : List Byte) (s : State) :
    executeCommand c args s = (c.effect args s).1.responding c args (c.effect args s).2 := rfl

theorem executeCommand_timed (c : Command) (args : List Byte) (hm : s.moments = []) :
    Timed (executeCommand c args) s := by
  cases he : c.event args s with
  | none =>
    refine .inl fun m => ?_
    rw [executeCommand_responding, executeCommand_responding, Command.response_withMoments, Command.effect_fst,
      Command.effect_fst, Command.event_withMoments, he]
    dsimp only [Option.map_none, Option.elim_none]
    rw [Command.direct_withMoments c args s m he]
    rfl
  | some e =>
    have hem : e.moments = [] := (Command.event_fixed he).1.moments.trans hm
    have hF : executeCommand c args s = e.finish.responding c args (c.effect args s).2 := by
      rw [executeCommand_responding, Command.effect_fst, he]
      rfl
    have hFm (m : List Nat) : executeCommand c args (s.withMoments m) =
        (e.during m).finish.responding c args (c.effect args s).2 := by
      rw [executeCommand_responding, Command.response_withMoments, Command.effect_fst, Command.event_withMoments, he]
      rfl
    refine .inr ⟨e.commit.responding c args (c.effect args s).2, ?_, fun k later => ⟨?_, ?_⟩⟩
    · rw [hF, Event.finish_of_alone e hem, choices_responding]
    · rw [hFm, Event.finish_during_shared]
      rfl
    · rw [hFm, hF, Event.finish_during_last, Event.finish_of_alone e hem]
      rfl

/-! ## All commands -/

theorem Timed.congr {F G : State → State} {s u : State} (h : Timed G u) (hs : F s = G u)
    (hm : ∀ m, F (s.withMoments m) = G (u.withMoments m)) : Timed F s := by
  rcases h with h | ⟨v, hv, h⟩
  · exact .inl fun m => by rw [hm, hs, h]
  · refine .inr ⟨v, hs.trans hv, fun k later => ?_⟩
    rw [hm, hm, hs]
    exact h k later

/-- The statement's form of it, for a command that is a function of the state. -/
theorem Timed.exec {c : Instr} {F : State → State} {s t : State} (hF : ∀ u, exec c u = .next (F u)) (h : Timed F s)
    (he : exec c s = .next t) :
    TimedStep c s t := by
  rw [hF] at he
  cases he
  rcases h with h | ⟨u, hu, h⟩
  · exact .inl fun m => by rw [hF, h]
  · exact .inr ⟨u, hu, fun k later => ⟨by rw [hF, (h k later).1], by rw [hF, (h k later).2]⟩⟩

theorem Timed.of_same {F : State → State} (h : ∀ m : List Nat, F (s.withMoments m) = (F s).withMoments m) : Timed F s :=
  .inl h

theorem commandRow_timed (c : Command) (args : List Byte) (hm : s.moments = []) : ∃ F : State → State,
    (∀ u, commandRow c args u = .next (F u)) ∧ Timed F s := by
  refine ⟨fun u => if Completing u (c.code :: args) then executeCommand c args (setMclk true u) else u, fun u => ?_, ?_⟩
  · rw [commandRow_eq]
    dsimp only
    split <;> rfl
  · by_cases hc : Completing s (c.code :: args)
    · exact (executeCommand_timed c args (s := setMclk true s) hm).congr (if_pos hc) fun m => if_pos hc
    · exact Timed.of_same fun m => (if_neg hc).trans (congrArg (fun u : State => u.withMoments m) (if_neg hc).symm)

theorem receiveByte_timed (b : Byte) (hm : s.moments = []) : Timed (receiveByte b) s := by
  cases hc : s.mgmt.txn.command with
  | none =>
    have hF (u : State) (hu : u.mgmt = s.mgmt) : receiveByte b u =
        if (decodeCommand b).argCount = 0 then executeCommand (decodeCommand b) [] u
        else setTxn { u.mgmt.txn with bitCount := 0, shift := 0, command := some (decodeCommand b) } u := by
      unfold receiveByte
      dsimp only
      rw [hu, hc]
    by_cases ha : (decodeCommand b).argCount = 0
    · exact (executeCommand_timed _ _ hm).congr ((hF s rfl).trans (if_pos ha)) fun m =>
        (hF (s.withMoments m) rfl).trans (if_pos ha)
    · refine Timed.of_same fun m => ?_
      rw [hF s rfl, hF (s.withMoments m) rfl, if_neg ha, if_neg ha]
      rfl
  | some c =>
    have hF (u : State) (hu : u.mgmt = s.mgmt) : receiveByte b u =
        if c.argCount ≤ (s.mgmt.txn.args ++ [b]).length then executeCommand c (s.mgmt.txn.args ++ [b]) u
        else setTxn { u.mgmt.txn with bitCount := 0, shift := 0, args := s.mgmt.txn.args ++ [b] } u := by
      unfold receiveByte
      dsimp only
      rw [hu, hc]
    by_cases ha : c.argCount ≤ (s.mgmt.txn.args ++ [b]).length
    · exact (executeCommand_timed _ _ hm).congr ((hF s rfl).trans (if_pos ha)) fun m =>
        (hF (s.withMoments m) rfl).trans (if_pos ha)
    · refine Timed.of_same fun m => ?_
      rw [hF s rfl, hF (s.withMoments m) rfl, if_neg ha, if_neg ha]
      rfl

theorem clockRises_timed (mdi : Bool) (hm : s.moments = []) : Timed (clockRises mdi) s := by
  cases hp : s.mgmt.txn.port with
  | deselected =>
    have hF (u : State) (hu : u.mgmt = s.mgmt) : clockRises mdi u = u := by simp only [clockRises, hu, hp]
    exact Timed.of_same fun m => by rw [hF s rfl, hF (s.withMoments m) rfl]
  | responding =>
    have hF (u : State) (hu : u.mgmt = s.mgmt) : clockRises mdi u = setTxn (sampleResponse s.mgmt.txn) u := by
      simp only [clockRises, hu, hp]
    exact Timed.of_same fun m => by rw [hF s rfl, hF (s.withMoments m) rfl]; rfl
  | trailing =>
    have hF (u : State) (hu : u.mgmt = s.mgmt) : clockRises mdi u =
        setTxn { s.mgmt.txn with bitCount := (s.mgmt.txn.bitCount + 1) % 8 } u := by
      simp only [clockRises, hu, hp]
    exact Timed.of_same fun m => by rw [hF s rfl, hF (s.withMoments m) rfl]; rfl
  | receiving =>
    have hF (u : State) (hu : u.mgmt = s.mgmt) : clockRises mdi u = receiveBit mdi u := by
      simp only [clockRises, hu, hp]
    have hFm (m : List Nat) := hF (s.withMoments m) rfl
    by_cases hb : s.mgmt.txn.bitCount + 1 = 8
    · exact (receiveByte_timed ((s.mgmt.txn.shift <<< 1) ||| bitAt mdi 0) hm).congr ((hF s rfl).trans (if_pos hb)) fun m =>
        (hFm m).trans (if_pos hb)
    · refine Timed.of_same fun m => ?_
      rw [hF s rfl, hFm, show receiveBit mdi s = _ from if_neg hb,
        show receiveBit mdi (s.withMoments m) = _ from if_neg hb]
      rfl

theorem mclkEdge_timed (edge : MclkEdge) (hm : s.moments = []) : ∃ F : State → State,
    (∀ u, exec (.mclkEdge edge) u = .next (F u)) ∧ Timed F s := by
  cases edge with
  | rising mdi =>
    refine ⟨fun u => if u.mgmt.mclk then u else if u.resetN then clockRises mdi (setMclk true u) else setMclk true u,
      fun u => ?_, ?_⟩
    · show (if u.mgmt.mclk then _ else if u.resetN then _ else _) = _
      dsimp only
      split
      · rfl
      split <;> rfl
    · by_cases hc : s.mgmt.mclk = true
      · exact Timed.of_same fun m => (if_pos hc).trans (congrArg (fun u : State => u.withMoments m) (if_pos hc).symm)
      by_cases hr : s.resetN = true
      · exact (clockRises_timed mdi (s := setMclk true s) hm).congr ((if_neg hc).trans (if_pos hr)) fun m =>
          (if_neg hc).trans (if_pos hr)
      · refine Timed.of_same fun m => ?_
        show (if s.mgmt.mclk = true then _ else if s.resetN = true then _ else setMclk true (s.withMoments m)) =
          State.withMoments (if s.mgmt.mclk = true then _ else if s.resetN = true then _ else _) m
        rw [if_neg hc, if_neg hr, if_neg hc, if_neg hr]
        rfl
  | falling =>
    refine ⟨fun u => if u.mgmt.mclk then if u.resetN then clockFalls (setMclk false u) else setMclk false u else u,
      fun u => ?_, Timed.of_same fun m => ?_⟩
    · show (if u.mgmt.mclk then (if u.resetN then _ else _) else _) = _
      dsimp only
      split
      · split <;> rfl
      · rfl
    · have hf (u : State) : clockFalls (u.withMoments m) = (clockFalls u).withMoments m := by
        unfold clockFalls
        rw [show (u.withMoments m).mgmt = u.mgmt from rfl]
        cases u.mgmt.txn.port <;> rfl
      rw [State.withMoments_ite, State.withMoments_ite, ← hf]
      rfl

end Commands

section Rows
variable {s t : State}

theorem eventBase_moments {c : Instr} {e : Event} (h : broughtEvent c s = some e) :
    (eventBase c s).moments = s.moments := by
  rcases eventBase_cases h with hb | ⟨sd, m, -, -, hb⟩ | ⟨-, hb⟩ | ⟨-, -, hb⟩ | ⟨straps, -, -, hb⟩
  · rw [hb]
  · rcases memoryServed_cases m s with hs | ⟨-, hs⟩
    · rw [hb, hs]; rfl
    · rw [hb, hs]; rfl
  · obtain ⟨-, -, -, hm, -⟩ := runBegins_fixed s
    rw [hb, hm]
  · rw [hb]; rfl
  · rw [hb]; rfl

/-- A command brings no choice about, or is an event with the choices after it. -/
theorem exec_timed (c : Instr) (hm : s.moments = []) (h : exec c s = .next t) :
    TimedStep c s t := by
  by_cases hev : isEvent c = true
  · have hex (m : List Nat) : exec c (s.withMoments m) =
        .next (((broughtEvent c s).map (Event.during m)).elim (s.withMoments m) Event.finish) := by
      rw [exec_of_isEvent hev, broughtEvent_withMoments]
    rw [exec_of_isEvent hev] at h
    cases hb : broughtEvent c s with
    | none =>
      rw [hb] at h hex
      cases h
      exact .inl hex
    | some e =>
      rw [hb] at h hex
      cases h
      have hem : e.moments = [] := ((broughtEvent_keeps hb).moments.trans (eventBase_moments hb)).trans hm
      exact .inr ⟨e.commit, Event.finish_of_alone e hem, fun k later =>
        ⟨(hex _).trans (congrArg Host.Outcome.next (e.finish_during_shared k later)),
          (hex _).trans (congrArg Host.Outcome.next ((e.finish_during_last later).trans
            (congrArg (fun u : State => u.withMoments later) (Event.finish_of_alone e hem).symm)))⟩⟩
  have row {m : Command} {args : List Byte} (hc : ∀ u, exec c u = commandRow m args u) : TimedStep c s t := by
    obtain ⟨F, hF, hT⟩ := commandRow_timed m args (s := s) hm
    exact hT.exec (c := c) (fun u => (hc u).trans (hF u)) h
  cases c with
  | signalDetected =>
    refine Timed.exec (F := fun u => if u.resetN then u.withLink (if u.link.inbound = .noSignal then
        { u.link with inbound := .aligning, validRun := 0, lastTransition := u.node.timebase }
      else { u.link with lastTransition := u.node.timebase }) else u) (fun u => ?_) (Timed.of_same fun m => ?_) h
    · by_cases hr : u.resetN = true
      · rw [exec_signalDetected hr]
        dsimp only
        rw [if_pos hr]
        split <;> rfl
      · dsimp only
        rw [if_neg hr]
        exact if_neg hr
    · dsimp only
      rw [State.withMoments_ite]
      rfl
  | hstbNRelease => exact Timed.exec (F := releaseStrobe) (fun _ => rfl) (Timed.of_same fun _ => rfl) h
  | timebaseAdvance =>
    refine Timed.exec (F := fun u => if u.resetN then u.withNode { u.node with timebase := u.node.timebase + 1 } else u)
      (fun u => ?_) (Timed.of_same fun m => ?_) h
    · show (if u.resetN then _ else _) = _
      dsimp only
      split <;> rfl
    · dsimp only
      rw [State.withMoments_ite]
      rfl
  | transactionBegin =>
    refine Timed.exec (F := fun u => if u.mgmt.mselN then
        if u.resetN ∧ u.mgmt.txn.port = .deselected then beginTransaction (u.withMgmt { u.mgmt with mselN := false })
        else u.withMgmt { u.mgmt with mselN := false }
      else u) (fun u => ?_) (Timed.of_same fun m => ?_) h
    · show (if u.mgmt.mselN then (if u.resetN ∧ u.mgmt.txn.port = .deselected then _ else _) else _) = _
      dsimp only
      split
      · split <;> rfl
      · rfl
    · dsimp only
      rw [State.withMoments_ite, State.withMoments_ite]
      rfl
  | transactionEnd =>
    refine Timed.exec (F := fun u => if u.mgmt.mselN then u else
        if u.resetN then endTransaction (u.withMgmt { u.mgmt with mselN := true })
        else u.withMgmt { u.mgmt with mselN := true }) (fun u => ?_) (Timed.of_same fun m => ?_) h
    · show (if u.mgmt.mselN then _ else if u.resetN then _ else _) = _
      dsimp only
      split
      · rfl
      split <;> rfl
    · have he (u : State) : endTransaction (u.withMoments m) = (endTransaction u).withMoments m := by
        unfold endTransaction
        dsimp only
        rw [show (u.withMoments m).mgmt = u.mgmt from rfl]
        split <;> rfl
      dsimp only
      rw [State.withMoments_ite, State.withMoments_ite, ← he]
      rfl
  | mclkEdge edge =>
    obtain ⟨F, hF, hT⟩ := mclkEdge_timed edge hm
    exact hT.exec hF h
  | unknownCommand code =>
    by_cases hd : decodeCommand code = .unknown code
    · exact row (m := .unknown code) (args := []) fun u => if_pos hd
    · exact Timed.exec (F := id) (fun _ => if_neg hd) (Timed.of_same fun _ => rfl) h
  | ident | status | readParams | setParams | softReset | readWindow | writeWindow | enableWindow | disableWindow
  | clearWindow | flush | readSource | start | stop | readEvents | setEnables | ackEvents | takeIncident =>
    exact row fun u => rfl
  | _ => exact absurd rfl hev

/-- A grant to each requester, and none (R133). -/
theorem granted_of_choice (ha : s.arb.cycle = none) {c : MemCycle} (hc : arbiterChoice s = some c) :
    (arbitrate s).arb.cycle.map MemCycle.grant = some c.grant := by
  have h : arbitrate s = grantCycle c s := by
    unfold arbitrate
    rw [ha, hc]
  rw [h]
  unfold grantCycle
  cases hg : c.grant <;> simp [hg]

theorem applyRequest_of_ne (h : s.aq.entries ≠ []) : ∃ a, applyRequest s = some a ∧ a.grant = .apply := by
  cases hq : s.aq.entries with
  | nil => exact absurd hq h
  | cons a rest => exact ⟨a.wordCycle, by simp [applyRequest, hq], rfl⟩

theorem arbitrate_of_no_choice (h : arbiterChoice s = none) (ha : s.arb.cycle = none) : arbitrate s = s := by
  unfold arbitrate
  rw [ha, h]

end Rows

/-- Settles O15: what a command does in its moment, and the rows of the choice. -/
theorem memoryArbiterChoosesByItsRows : Obligations.MemoryArbiterChoosesByItsRows := by
  refine ⟨fun c s t hm h => exec_timed c hm h, fun s ha => ?_⟩
  refine ⟨fun hh hq => ?_, fun hh hr hq hl => ?_, fun hh hr hq hl => ?_, fun hr hq => ?_, fun hr hq => ?_, fun hr hq => ?_⟩
  · obtain ⟨a, hreq, hg⟩ := applyRequest_of_ne hq
    rw [granted_of_choice ha (c := a) (by simp [arbiterChoice, hreq, hh]), hg]
  · obtain ⟨a, hreq, -⟩ := applyRequest_of_ne hq
    obtain ⟨r, hr⟩ := Option.isSome_iff_exists.1 hr
    rw [granted_of_choice ha (c := r) (by simp [arbiterChoice, hreq, hh, hr, hl]), (hostRequest_grant hr).2]
  · obtain ⟨a, hreq, hg⟩ := applyRequest_of_ne hq
    obtain ⟨r, hr⟩ := Option.isSome_iff_exists.1 hr
    rw [granted_of_choice ha (c := a) (by simp [arbiterChoice, hreq, hh, hr, hl]), hg]
  · obtain ⟨r, hr⟩ := Option.isSome_iff_exists.1 hr
    rw [granted_of_choice ha (c := r) (by simp [arbiterChoice, applyRequest, hq, hr]), (hostRequest_grant hr).2]
  · obtain ⟨a, hreq, hg⟩ := applyRequest_of_ne hq
    rw [granted_of_choice ha (c := a) (by simp [arbiterChoice, hreq, hr]), hg]
  · exact arbitrate_of_no_choice (by simp [arbiterChoice, applyRequest, hq, hr]) ha

end Sys2Proof.Machine
end

section
/-! SUPPORT. STOP (R145) and FLUSH (R53), and the statements about them. -/

namespace Sys2Proof.Machine

/-! ## What both need -/

section Common
variable {s t : State} {e : Event}

/-- With no announce record, and no mode that sends anew, the offer is gone where it was. -/
theorem originationOffer_none (h : originationOffer s = none) (ha : t.orig.announce = none)
    (hr : t.orig.resend = s.orig.resend) (hb : t.orig.backoff = s.orig.backoff) (hf : t.orig.flight = s.orig.flight)
    (hm : t.node.mode.sends = true → s.node.mode.sends = true ∧ t.pq.offer = s.pq.offer) :
    originationOffer t = none := by
  have hann := announceOffer_of_none h
  have hann' : announceOffer t = none := by simp [announceOffer, ha]
  have hres : resendEntry t.orig = resendEntry s.orig := by rw [resendEntry, resendEntry, hr, hf]
  unfold originationOffer at h ⊢
  rw [hann] at h
  rw [hann', hr, hb, hf, hres]
  dsimp only at h ⊢
  split at h
  next hi => rw [if_pos hi]; exact h
  next hi =>
    rw [if_neg hi]
    split
    next hs =>
      obtain ⟨hsend, hoff⟩ := hm hs.1
      rw [if_pos ⟨hsend, hs.2⟩] at h
      rw [hoff]
      exact h
    next => rfl

theorem Event.demoteUnpublished_pq (h : HostLaw e.toState) :
    e.demoteUnpublished.pq = { e.pq with held := none } := by
  obtain ⟨-, -, -, -, -, hheld, -⟩ := h
  by_cases hh : e.host.hold = .publishHold
  · cases hw : heldWindow e.toState with
    | none => rw [e.demoteUnpublished_of_none hh hw]; rfl
    | some i => rw [e.demoteUnpublished_of_window hh hw, Event.requestDiverged_pq]; rfl
  · have hnone : e.pq.held = none := by simpa using mt hheld.1 hh
    rw [e.demoteUnpublished_of_ne hh, ← hnone]

theorem Event.discardPq_pq (e : Event) :
    e.discardPq.pq = { e.pq with class0 := [], class1 := [], class2 := [], class3 := [] } := by
  rw [Event.discardPq, Event.requestDivergedAll_pq]
  rfl

/-- The end of a drain changes the mode and raises DRAIN_DONE alone. -/
theorem Event.drainCheck_of_drained (hm : e.node.mode = .draining) (hp : e.pq.total = 0) (hf : e.orig.flight = []) :
    e.drainCheck = (e.on (setMode .offline)).raise .drainDone := if_pos ⟨hm, hp, hf⟩

theorem Event.drainCheck_of_not (h : ¬(e.node.mode = .draining ∧ e.pq.total = 0 ∧ e.orig.flight = [])) :
    e.drainCheck = e := if_neg h

/-- A host cycle that is not in PUBLISH_HOLD stands, and so does the memory port. -/
theorem Ended.host_stands (h : Ended e t) (hs : Settled s) (hh : e.host = s.host) (hq : e.aq = s.aq) (ha : e.arb = s.arb) :
    t.host = s.host ∧ t.arb = s.arb := by
  obtain ⟨h1, h2⟩ := arbitrate_settled hs hh hq ha
  exact ⟨h.host.trans h1, h.arb.trans h2⟩

/-- A demoted write goes on to its memory cycle. -/
theorem Ended.released (h : Ended e t) (hs : Settled s) (hlaw : HostLaw s) {cls : HostClass}
    (hh : s.host.hold = .publishHold) (hu : e.host = { s.host with
      path := .requesting, hold := .noHold, cycle := s.host.cycle.map fun c => { c with cls := cls } })
    (hq : e.aq = s.aq) (ha : e.arb = s.arb) : ReleasedAs cls s t := by
  obtain ⟨c, hc, -⟩ := hlaw.cycle_of_hold (by rw [hh]; decide)
  exact releasedAs_of_arbitrate hu ha (fun h => by rw [hq]; exact (hs.2.2 h).2) (by rw [hc]; rfl) h.host h.arb

end Common

/-! ## STOP (R145) -/

section Stop
variable {s : State} {e : Event}

/-- The event of STOP in ACTIVE, before the drain may end. -/
def stopped (s : State) : Event := ((Event.begin s).on (setMode .draining)).demoteUnpublished

/-- An event that ends the join: OFFLINE with DRAIN_DONE and no announce record. -/
def leaveRing (e : Event) : Event := (e.on fun s => setMode .offline (abandonAnnounce s)).raise .drainDone

/-- The event of STOP in JOINING. -/
def left (s : State) : Event := leaveRing (Event.begin s).discardPq.demoteUnpublished

theorem leaveRing_node (e : Event) : (leaveRing e).node = { e.node with mode := .offline } := rfl
theorem leaveRing_orig (e : Event) : (leaveRing e).orig = { e.orig with announce := none } := rfl
@[simp] theorem leaveRing_resetN (e : Event) : (leaveRing e).resetN = e.resetN := rfl
@[simp] theorem leaveRing_moments (e : Event) : (leaveRing e).moments = e.moments := rfl
@[simp] theorem leaveRing_sources (e : Event) : (leaveRing e).sources = e.sources := rfl
@[simp] theorem leaveRing_link (e : Event) : (leaveRing e).link = e.link := rfl
@[simp] theorem leaveRing_out (e : Event) : (leaveRing e).out = e.out := rfl
@[simp] theorem leaveRing_aq (e : Event) : (leaveRing e).aq = e.aq := rfl
@[simp] theorem leaveRing_arb (e : Event) : (leaveRing e).arb = e.arb := rfl
@[simp] theorem leaveRing_mem (e : Event) : (leaveRing e).mem = e.mem := rfl
@[simp] theorem leaveRing_host (e : Event) : (leaveRing e).host = e.host := rfl
@[simp] theorem leaveRing_pq (e : Event) : (leaveRing e).pq = e.pq := rfl

theorem exec_stop_active (hc : Completing s [0x31]) (hm : s.node.mode = .active) :
    exec .stop s = .next ((stopped (setMclk true s)).drainCheck.finish.responding .stop [] [0x00]) := by
  refine commandRow_responding hc ?_
  show stopEffect (setMclk true s) = _
  unfold stopEffect
  rw [show (setMclk true s).node = s.node from rfl, hm]
  rfl

theorem exec_stop_joining (hc : Completing s [0x31]) (hm : s.node.mode = .joining) :
    exec .stop s = .next ((left (setMclk true s)).finish.responding .stop [] [0x00]) := by
  refine commandRow_responding hc ?_
  show stopEffect (setMclk true s) = _
  unfold stopEffect
  rw [show (setMclk true s).node = s.node from rfl, hm]
  rfl

/-- What the event of STOP does in both modes, but for the mode and the queues. -/
structure Stopped (P : WinIdx → Prop) (s : State) (e : Event) : Prop where
  resetN : e.resetN = s.resetN
  moments : e.moments = s.moments
  settled : OutputSettled e.toState
  sources : e.sources = s.sources
  link : e.link = s.link
  out : e.out = s.out
  aq : e.aq = s.aq
  arb : e.arb = s.arb
  mem : e.mem = s.mem
  node : { e.node with mode := s.node.mode } = s.node
  held : s.host.hold = .publishHold → e.host = { s.host with
    path := .requesting, hold := .noHold, cycle := s.host.cycle.map fun c => { c with cls := .unpublished } }
  kept : s.host.hold ≠ .publishHold → e.host = s.host
  marks : (Event.begin s).Marks P e

theorem stopped_marks (h : HostLaw s) :
    (Event.begin s).Marks (fun i => ∃ r ∈ s.pq.held, r.window = i) (stopped s) :=
  Event.Marks.none_trans (f := (Event.begin s).on (setMode .draining)) rfl (fun _ => id)
    ((Event.demoteUnpublished_marks _).congr fun j => HostLaw.heldWindow_iff (s := setMode .draining s) h j)

theorem Event.Marks.leaveRing {P : WinIdx → Prop} {f : Event} (h : e.Marks P f) : e.Marks P (leaveRing f) :=
  h.trans_none rfl fun _ ho => List.mem_append_left _ ho

theorem left_marks (h : HostLaw s) : (Event.begin s).Marks
    (fun i => (∃ p ∈ s.pq.entries, p.window = i) ∨ ∃ r ∈ s.pq.held, r.window = i) (left s) := by
  have hd := (Event.begin s).discardPq_marks.trans (Event.begin s).discardPq.demoteUnpublished_marks
  have hheld (j : WinIdx) : ((Event.begin s).discardPq.host.hold = .publishHold ∧
      heldWindow (Event.begin s).discardPq.toState = some j) ↔ ∃ r ∈ s.pq.held, r.window = j := by
    rw [← h.heldWindow_iff j, heldWindow, Event.discardPq_host]
    rfl
  exact Event.Marks.leaveRing (hd.congr fun j => by rw [hheld]; rfl)

theorem stopped_node (s : State) : (stopped s).node = { s.node with mode := .draining } := by
  rw [stopped, Event.demoteUnpublished_node]
  rfl

theorem stopped_orig (s : State) : (stopped s).orig = s.orig := by
  rw [stopped, Event.demoteUnpublished_orig]
  rfl

theorem stopped_pq (h : HostLaw s) : (stopped s).pq = { s.pq with held := none } :=
  Event.demoteUnpublished_pq (e := (Event.begin s).on (setMode .draining)) h

theorem stopped_host (s : State) :
    (s.host.hold = .publishHold → (stopped s).host = { s.host with
      path := .requesting, hold := .noHold, cycle := s.host.cycle.map fun c => { c with cls := .unpublished } }) ∧
    (s.host.hold ≠ .publishHold → (stopped s).host = s.host) := by
  refine ⟨fun hh => ?_, fun hh => ?_⟩
  · exact Event.demoteUnpublished_cycle (e := (Event.begin s).on (setMode .draining)) hh
  · rw [stopped, Event.demoteUnpublished_of_ne _ (show ((Event.begin s).on (setMode .draining)).host.hold ≠ .publishHold from hh)]
    rfl

theorem stopped_announce (hmode : ModeLaw s) (hm : s.node.mode = .active) : s.orig.announce = none :=
  hmode.announce_none (by rw [hm]; decide)

theorem stopped_stopped (hs : Settled s) (hmode : ModeLaw s) (hlaw : HostLaw s) (hm : s.node.mode = .active) :
    Stopped (fun i => ∃ r ∈ s.pq.held, r.window = i) s (stopped s) where
  resetN := by rw [stopped, Event.demoteUnpublished_resetN]; rfl
  moments := by rw [stopped, Event.demoteUnpublished_moments]; rfl
  settled := by
    intro hidle hrun
    rw [stopped, Event.demoteUnpublished_out] at hidle
    rw [stopped, Event.demoteUnpublished_link] at hrun
    obtain ⟨hfifo, hoff⟩ := hs.2.1 hidle hrun
    refine ⟨by rw [stopped, Event.demoteUnpublished_out]; exact hfifo, originationOffer_none hoff ?_ ?_ ?_ ?_ ?_⟩
    · rw [stopped_orig]; exact stopped_announce hmode hm
    · rw [stopped_orig]
    · rw [stopped_orig]
    · rw [stopped_orig]
    · exact fun _ => ⟨by rw [hm]; rfl, by rw [stopped_pq hlaw]; rfl⟩
  sources := by rw [stopped, Event.demoteUnpublished_sources]; rfl
  link := by rw [stopped, Event.demoteUnpublished_link]; rfl
  out := by rw [stopped, Event.demoteUnpublished_out]; rfl
  aq := by rw [stopped, Event.demoteUnpublished_aq]; rfl
  arb := by rw [stopped, Event.demoteUnpublished_arb]; rfl
  mem := by rw [stopped, Event.demoteUnpublished_mem]; rfl
  node := by rw [stopped_node]
  held := (stopped_host s).1
  kept := (stopped_host s).2
  marks := stopped_marks hlaw

/-- The end of the drain keeps what STOP did. -/
theorem Stopped.drainCheck {P : WinIdx → Prop} (h : Stopped P s e) (hann : e.orig.announce = none) :
    Stopped P s e.drainCheck := by
  rcases e.drainCheck_cases with ⟨-, -, -, he⟩ | ⟨-, he⟩
  · rw [he]
    refine ⟨h.resetN, h.moments, fun hidle hrun => ?_, h.sources, h.link, h.out, h.aq, h.arb, h.mem, h.node, h.held, h.kept,
      h.marks.trans_none rfl fun _ ho => List.mem_append_left _ ho⟩
    obtain ⟨hfifo, hoff⟩ := h.settled hidle hrun
    exact ⟨hfifo, originationOffer_none hoff hann rfl rfl rfl fun hm => nomatch hm⟩
  · rwa [he]

theorem left_node (s : State) : (left s).node = { s.node with mode := .offline } := by
  rw [left, leaveRing_node, Event.demoteUnpublished_node, Event.discardPq_node]
  rfl

theorem left_orig (s : State) : (left s).orig = { s.orig with announce := none } := by
  rw [left, leaveRing_orig, Event.demoteUnpublished_orig, Event.discardPq_orig]
  rfl

theorem discardPq_begin_host (s : State) : (Event.begin s).discardPq.host = s.host := Event.discardPq_host _

theorem left_host (s : State) :
    (s.host.hold = .publishHold → (left s).host = { s.host with
      path := .requesting, hold := .noHold, cycle := s.host.cycle.map fun c => { c with cls := .unpublished } }) ∧
    (s.host.hold ≠ .publishHold → (left s).host = s.host) := by
  rw [left, leaveRing_host]
  refine ⟨fun hh => ?_, fun hh => ?_⟩
  · rw [Event.demoteUnpublished_cycle (by rw [discardPq_begin_host]; exact hh), discardPq_begin_host]
  · rw [Event.demoteUnpublished_of_ne _ (by rw [discardPq_begin_host]; exact hh), discardPq_begin_host]

theorem HostLaw.discardPq (h : HostLaw s) : HostLaw (Event.begin s).discardPq.toState := by
  simpa [HostLaw, Event.discardPq_host, Event.discardPq_arb, Event.discardPq_held] using h

theorem left_pq (h : HostLaw s) : (left s).pq = PublishQueue.reset := by
  rw [left, leaveRing_pq, Event.demoteUnpublished_pq h.discardPq, Event.discardPq_pq]
  rfl

theorem left_stopped (hs : Settled s) (hlaw : HostLaw s) :
    Stopped (fun i => (∃ p ∈ s.pq.entries, p.window = i) ∨ ∃ r ∈ s.pq.held, r.window = i) s (left s) where
  resetN := by simp [left]
  moments := by simp [left]
  settled := by
    intro hidle hrun
    have hout : (left s).out = s.out := by simp [left]
    have hlink : (left s).link = s.link := by simp [left]
    rw [hout] at hidle ⊢
    obtain ⟨hfifo, hoff⟩ := hs.2.1 hidle (by rwa [hlink] at hrun)
    refine ⟨hfifo, originationOffer_none hoff ?_ ?_ ?_ ?_ ?_⟩
    · rw [left_orig]
    · rw [left_orig]
    · rw [left_orig]
    · rw [left_orig]
    · rw [left_node]; exact fun hm => nomatch hm
  sources := by simp [left]
  link := by simp [left]
  out := by simp [left]
  aq := by simp [left]
  arb := by simp [left]
  mem := by simp [left]
  node := by rw [left_node]
  held := (left_host s).1
  kept := (left_host s).2
  marks := left_marks hlaw

/-- STOP from a running mode: what is left of the state, whatever becomes of the mode and the queues. -/
theorem Stopped.ends {P : WinIdx → Prop} (h : Stopped P s e) (hs : Settled s) (hlaw : HostLaw s) (hr : s.resetN = true) :
    ∃ t, e.finish = t ∧ Ended e t ∧
    (s.host.hold = .publishHold → ReleasedAs .unpublished s t) ∧
    (s.host.hold ≠ .publishHold → t.host = s.host ∧ t.arb = s.arb) ∧ t.aq = s.aq ∧
    (∀ o ∈ e.raised, Pending t o.cause) ∧
    (∀ i : WinIdx,
      { t.windows[i] with diverged := s.windows[i].diverged } = s.windows[i] ∧
      (t.windows[i].diverged = true ↔ s.windows[i].diverged = true ∨ (s.windows[i].kind = .owned ∧ P i)) ∧
      (P i → s.windows[i].kind = .owned → s.windows[i].diverged = false → Pending t 12)) := by
  have hend : Ended e e.finish := Event.finish_ended (.inl (h.moments.trans hs.1)) h.settled
  have hpend (o) (ho : o ∈ e.raised) : Pending e.finish o.cause := Event.pending_finish (h.resetN.trans hr) ho
  generalize e.finish = t at hend hpend
  refine ⟨t, rfl, hend, fun hh => hend.released hs hlaw hh (h.held hh) h.aq h.arb,
    fun hh => hend.host_stands hs (h.kept hh) h.aq h.arb,
    (hend.aq_eq fun hc => ?_).trans h.aq, hpend, fun i => ?_⟩
  · rw [h.aq]
    rw [h.arb] at hc
    exact (hs.2.2 hc).2
  · have hw : t.windows[i] = e.windows[i] := by rw [hend.windows]
    rw [hw]
    exact ⟨h.marks.rest i, h.marks.diverged_iff i, fun hp hk hd => hpend _ (h.marks.caused i hp hk hd)⟩

/-- MCLK is not of the state that STOP is about. -/
theorem Stopped.of_setMclk {P : WinIdx → Prop} (h : Stopped P (setMclk true s) e) : Stopped P s e :=
  ⟨h.resetN, h.moments, h.settled, h.sources, h.link, h.out, h.aq, h.arb, h.mem, h.node, h.held, h.kept,
    ⟨h.marks.marked, h.marks.kept, h.marks.raised, h.marks.caused⟩⟩

theorem stop_stands (hc : Completing s [0x31]) (hm : s.node.mode = .draining) :
    exec .stop s = .next (s.answered .stop [] [0x00]) := by
  refine commandRow_answered hc ?_
  show stopEffect (setMclk true s) = _
  rw [stopEffect, show (setMclk true s).node = s.node from rfl, hm]
  rfl

theorem stop_refused (hc : Completing s [0x31]) (hm : s.node.mode = .offline) :
    exec .stop s = .next (s.answered .stop [] [0x02]) := by
  refine commandRow_answered hc ?_
  show stopEffect (setMclk true s) = _
  rw [stopEffect, show (setMclk true s).node = s.node from rfl, hm]
  rfl

/-- The end of the event of STOP in ACTIVE: the drain ends at once when both queues are empty. -/
theorem stopped_drainCheck (hlaw : HostLaw s) :
    (s.pq.total = 0 → s.orig.flight = [] →
      (stopped s).drainCheck.node.mode = .offline ∧ .drainDone ∈ (stopped s).drainCheck.raised) ∧
    (s.pq.total ≠ 0 ∨ s.orig.flight ≠ [] → (stopped s).drainCheck.node.mode = .draining) := by
  have hmode : (stopped s).node.mode = .draining := by rw [stopped_node]
  have hpq : (stopped s).pq.total = s.pq.total := by rw [stopped_pq hlaw]; rfl
  refine ⟨fun hp hf => ?_, fun h => ?_⟩
  · rw [Event.drainCheck_of_drained hmode (hpq.trans hp) (by rw [stopped_orig, hf])]
    exact ⟨rfl, List.mem_append_right _ (.head _)⟩
  · rw [Event.drainCheck_of_not (by rw [hpq, stopped_orig]; rintro ⟨-, hp, hf⟩; exact h.elim (· hp) (· hf)), hmode]

/-- STOP in ACTIVE. -/
theorem exec_stop_drains (hs : Settled s) (hmode : ModeLaw s) (hlaw : HostLaw s) (hc : Completing s [0x31])
    (hm : s.node.mode = .active) : ∃ e, exec .stop s = .next (e.finish.responding .stop [] [0x00]) ∧
      Stopped (fun i => ∃ r ∈ s.pq.held, r.window = i) s e ∧ e.orig = s.orig ∧ e.pq = { s.pq with held := none } ∧
      (s.pq.total = 0 → s.orig.flight = [] → e.node.mode = .offline ∧ .drainDone ∈ e.raised) ∧
      (s.pq.total ≠ 0 ∨ s.orig.flight ≠ [] → e.node.mode = .draining) := by
  obtain ⟨hdrained, hgoes⟩ := stopped_drainCheck (s := setMclk true s) hlaw
  have hst := (stopped_stopped (s := setMclk true s) hs hmode hlaw hm).drainCheck
    (by rw [stopped_orig]; exact stopped_announce (s := s) hmode hm)
  exact ⟨_, exec_stop_active hc hm, hst.of_setMclk, (Event.drainCheck_orig _).trans (stopped_orig _),
    (Event.drainCheck_pq _).trans (stopped_pq (s := setMclk true s) hlaw), hdrained, hgoes⟩

/-- STOP in JOINING. -/
theorem exec_stop_leaves (hs : Settled s) (hlaw : HostLaw s) (hc : Completing s [0x31]) (hm : s.node.mode = .joining) :
    ∃ e, exec .stop s = .next (e.finish.responding .stop [] [0x00]) ∧
      Stopped (fun i => (∃ p ∈ s.pq.entries, p.window = i) ∨ ∃ r ∈ s.pq.held, r.window = i) s e ∧
      e.node.mode = .offline ∧ .drainDone ∈ e.raised ∧ e.orig = { s.orig with announce := none } ∧
      e.pq = PublishQueue.reset :=
  ⟨_, exec_stop_joining hc hm, (left_stopped (s := setMclk true s) hs hlaw).of_setMclk,
    congrArg NodeControl.mode (left_node _), List.mem_append_right _ (.head _), left_orig _,
    left_pq (s := setMclk true s) hlaw⟩

/-- Settles O40: the event of STOP keeps all but the mode, the queues and a held write, whose release is the port's choice. -/
theorem stopDrainsOrLeavesTheRing : Obligations.StopDrainsOrLeavesTheRing := by
  unfold Obligations.StopDrainsOrLeavesTheRing
  intro s hs hlaw hmode hc
  refine ⟨stop_refused hc, stop_stands hc, fun hm => ?_⟩
  rcases hm with hm | hm
  · obtain ⟨e, hexec, hst, horig, hpq, hdrained, hgoes⟩ := exec_stop_drains hs hmode hlaw hc hm
    obtain ⟨t, ht, hend, hheld, hkept, haq, hpend, hwin⟩ := hst.ends hs hlaw hc.1
    rw [ht] at hexec
    refine ⟨_, hexec, rfl, rfl, hend.sources.trans hst.sources, hend.link.trans hst.link,
      hend.out.trans hst.out, haq, hend.mem.trans hst.mem, ?_, hheld, hkept, fun i => ?_,
      fun _ => ⟨hend.orig.trans horig, hend.pq.trans hpq, fun hp hf => ?_, fun h => ?_⟩,
      fun hj => absurd (hm.symm.trans hj) (by decide)⟩
    · exact (congrArg (fun n : NodeControl => { n with mode := s.node.mode }) hend.node).trans hst.node
    · have hasked : ((s.node.mode = .joining ∧ ∃ p ∈ s.pq.entries, p.window = i) ∨ ∃ r ∈ s.pq.held, r.window = i) ↔
          ∃ r ∈ s.pq.held, r.window = i := by simp [hm]
      dsimp only
      rw [hasked]
      exact hwin i
    · obtain ⟨hoff, hdone⟩ := hdrained hp hf
      exact ⟨(congrArg _ hend.node).trans hoff, hpend _ hdone⟩
    · exact (congrArg _ hend.node).trans (hgoes h)
  · obtain ⟨e, hexec, hst, hoff, hdone, horig, hpq⟩ := exec_stop_leaves hs hlaw hc hm
    obtain ⟨t, ht, hend, hheld, hkept, haq, hpend, hwin⟩ := hst.ends hs hlaw hc.1
    rw [ht] at hexec
    refine ⟨_, hexec, rfl, rfl, hend.sources.trans hst.sources, hend.link.trans hst.link,
      hend.out.trans hst.out, haq, hend.mem.trans hst.mem, ?_, hheld, hkept, fun i => ?_,
      fun ha => absurd (hm.symm.trans ha) (by decide),
      fun _ => ⟨(congrArg _ hend.node).trans hoff, hpend _ hdone, hend.orig.trans horig, hend.pq.trans hpq⟩⟩
    · exact (congrArg (fun n : NodeControl => { n with mode := s.node.mode }) hend.node).trans hst.node
    · have hasked : ((s.node.mode = .joining ∧ ∃ p ∈ s.pq.entries, p.window = i) ∨ ∃ r ∈ s.pq.held, r.window = i) ↔
          ((∃ p ∈ s.pq.entries, p.window = i) ∨ ∃ r ∈ s.pq.held, r.window = i) := by simp [hm]
      dsimp only
      rw [hasked]
      exact hwin i

end Stop

/-! ## FLUSH (R53) -/

section Flush
variable {s t : State} {e : Event} {c : PrioClass} {n : Byte}

/-- The event of FLUSH before room is looked for. -/
def flushed (c : PrioClass) (s : State) : Event :=
  ((Event.begin s).on fun s => s.withPq (s.pq.setClassList c [])).requestDivergedAll
    ((s.pq.classList c).map PqEntry.window)

theorem flushed_pq (c : PrioClass) (s : State) : (flushed c s).pq = s.pq.setClassList c [] := by
  rw [flushed, Event.requestDivergedAll_pq]
  rfl

theorem exec_flush (hc : Completing s [0x20, n]) (hn : n.toNat = c.val) (hl : s.pq.classList c ≠ []) :
    exec (.flush n) s = .next ((flushed c (setMclk true s)).roomCheck.drainCheck.finish.responding .flush [n]
      [0x00, BitVec.ofNat 8 (s.pq.classList c).length]) := by
  refine commandRow_responding hc ?_
  have hlt : n.toNat < 4 := hn ▸ c.isLt
  have hcls : (⟨n.toNat, hlt⟩ : PrioClass) = c := Fin.ext hn
  show flushEffect n (setMclk true s) = _
  rw [flushEffect, dif_pos hlt, hcls, if_neg (show (setMclk true s).pq.classList c ≠ [] from hl)]
  rfl

theorem exec_flush_empty (hc : Completing s [0x20, n]) (hn : n.toNat = c.val) (hl : s.pq.classList c = []) :
    exec (.flush n) s = .next (s.answered .flush [n] [0x00, 0x00]) := by
  refine commandRow_answered hc ?_
  have hlt : n.toNat < 4 := hn ▸ c.isLt
  have hcls : (⟨n.toNat, hlt⟩ : PrioClass) = c := Fin.ext hn
  show flushEffect n (setMclk true s) = _
  rw [flushEffect, dif_pos hlt, hcls, if_pos (show (setMclk true s).pq.classList c = [] from hl)]
  rfl

theorem exec_flush_refused (hc : Completing s [0x20, n]) (hn : 4 ≤ n.toNat) :
    exec (.flush n) s = .next (s.answered .flush [n] [0x03]) := by
  refine commandRow_answered hc ?_
  show flushEffect n (setMclk true s) = _
  rw [flushEffect, dif_neg (Nat.not_lt.2 hn)]
  rfl

/-- What the event of FLUSH does, whether or not it makes room or ends a drain. -/
structure Flushed (c : PrioClass) (s : State) (e : Event) : Prop where
  resetN : e.resetN = s.resetN
  moments : e.moments = s.moments
  settled : OutputSettled e.toState
  sources : e.sources = s.sources
  link : e.link = s.link
  out : e.out = s.out
  aq : e.aq = s.aq
  arb : e.arb = s.arb
  mem : e.mem = s.mem
  orig : e.orig = s.orig
  node : { e.node with mode := s.node.mode } = s.node
  diverged : ∀ i : WinIdx, e.windows[i].diverged = true ↔
    s.windows[i].diverged = true ∨ (s.windows[i].kind = .owned ∧ ∃ p ∈ s.pq.classList c, p.window = i)
  caused : ∀ p ∈ s.pq.classList c, s.windows[p.window].kind = .owned → s.windows[p.window].diverged = false →
    .divergedMarked p.window ∈ e.raised

theorem flushed_marks (c : PrioClass) (s : State) :
    (Event.begin s).Marks (fun i => ∃ p ∈ s.pq.classList c, p.window = i) (flushed c s) :=
  ((Event.begin s).on_requestDivergedAll_marks (f := fun s => s.withPq (s.pq.setClassList c [])) rfl _).congr fun _ =>
    List.mem_map

/-- With an entry in the Publish Queue, an idle running link with nothing to send cannot send an entry anew. -/
theorem Settled.unsent (hs : Settled s) (hmode : ModeLaw s) (hp : s.pq.total ≠ 0) (hrun : s.link.outbound = .running) :
    s.out.sending.isSome = true ∨ s.node.mode = .joining ∨ 16 ≤ s.orig.flight.length ∨ s.orig.resend.isSome = true := by
  by_contra h
  simp only [not_or, Option.not_isSome_iff_eq_none, Nat.not_le] at h
  obtain ⟨hidle, hj, hlen, hres⟩ := h
  have hsends : s.node.mode = .active ∨ s.node.mode = .draining := by
    cases hm : s.node.mode with
    | active => exact .inl rfl
    | draining => exact .inr rfl
    | joining => exact absurd hm hj
    | offline => exact absurd (hmode.1 hm).1 hp
  have hoff := (hs.2.1 hidle hrun).2
  rw [originationOffer_fresh (hmode.announce_none hj) hres hsends hlen, Option.map_eq_none_iff] at hoff
  exact hp (PublishQueue.offer_eq_none hoff)

theorem classList_total (hl : s.pq.classList c ≠ []) : s.pq.total ≠ 0 := fun h =>
  hl (PublishQueue.total_eq_zero_iff.1 h c)

theorem flushed_flushed (hs : Settled s) (hmode : ModeLaw s) (hl : s.pq.classList c ≠ []) :
    Flushed c s (flushed c s) where
  resetN := by rw [flushed, Event.requestDivergedAll_resetN]; rfl
  moments := by rw [flushed, Event.requestDivergedAll_moments]; rfl
  settled := by
    intro hidle hrun
    have hout : (flushed c s).out = s.out := by rw [flushed, Event.requestDivergedAll_out]; rfl
    have hlink : (flushed c s).link = s.link := by rw [flushed, Event.requestDivergedAll_link]; rfl
    exact OutputSettled.of_not_fresh (s := s) hs.2.1 hout hlink
      (by rw [flushed, Event.requestDivergedAll_orig]; rfl) (by rw [flushed, Event.requestDivergedAll_node]; rfl)
      (hs.unsent hmode (classList_total hl) (by rwa [hlink] at hrun)) hidle hrun
  sources := by rw [flushed, Event.requestDivergedAll_sources]; rfl
  link := by rw [flushed, Event.requestDivergedAll_link]; rfl
  out := by rw [flushed, Event.requestDivergedAll_out]; rfl
  aq := by rw [flushed, Event.requestDivergedAll_aq]; rfl
  arb := by rw [flushed, Event.requestDivergedAll_arb]; rfl
  mem := by rw [flushed, Event.requestDivergedAll_mem]; rfl
  orig := by rw [flushed, Event.requestDivergedAll_orig]; rfl
  node := by rw [flushed, Event.requestDivergedAll_node]; rfl
  diverged := (flushed_marks c s).diverged_iff
  caused p hp hk hd := (flushed_marks c s).caused p.window ⟨p, hp, rfl⟩ hk hd

theorem Flushed.drainCheck (h : Flushed c s e) (hann : e.node.mode = .draining → s.orig.announce = none) :
    Flushed c s e.drainCheck := by
  rcases e.drainCheck_cases with ⟨hm, -, -, he⟩ | ⟨-, he⟩
  · rw [he]
    refine ⟨h.resetN, h.moments, fun hidle hrun => ?_, h.sources, h.link, h.out, h.aq, h.arb, h.mem, h.orig, h.node,
      h.diverged, fun p hp hk hd => List.mem_append_left _ (h.caused p hp hk hd)⟩
    obtain ⟨hfifo, hoff⟩ := h.settled hidle hrun
    exact ⟨hfifo, originationOffer_none hoff ((congrArg _ h.orig).trans (hann hm)) rfl rfl rfl fun hm => nomatch hm⟩
  · rwa [he]

/-- FLUSH that empties a list: what is left of the state, whatever becomes of a held write and of a drain. -/
theorem Flushed.ends (h : Flushed c s e) (hs : Settled s) (hr : s.resetN = true) :
    ∃ t, e.finish = t ∧ Ended e t ∧ (∀ o ∈ e.raised, Pending t o.cause) ∧
      (t.orig = s.orig ∧ t.out = s.out ∧ t.link = s.link ∧ t.sources = s.sources ∧ t.aq = s.aq ∧ t.mem = s.mem ∧
        { t.node with mode := s.node.mode } = s.node) ∧
      (∀ i : WinIdx, t.windows[i].diverged = true ↔
        s.windows[i].diverged = true ∨ (s.windows[i].kind = .owned ∧ ∃ p ∈ s.pq.classList c, p.window = i)) ∧
      ∀ p ∈ s.pq.classList c, s.windows[p.window].kind = .owned → s.windows[p.window].diverged = false → Pending t 12 := by
  have hend : Ended e e.finish := Event.finish_ended (.inl (h.moments.trans hs.1)) h.settled
  have hpend (o) (ho : o ∈ e.raised) : Pending e.finish o.cause := Event.pending_finish (h.resetN.trans hr) ho
  generalize e.finish = t at hend hpend
  refine ⟨t, rfl, hend, hpend, ⟨hend.orig.trans h.orig, hend.out.trans h.out, hend.link.trans h.link,
    hend.sources.trans h.sources, (hend.aq_eq fun hc => ?_).trans h.aq, hend.mem.trans h.mem, ?_⟩, fun i => ?_,
    fun p hp hk hd => hpend _ (h.caused p hp hk hd)⟩
  · rw [h.aq]
    rw [h.arb] at hc
    exact (hs.2.2 hc).2
  · rw [hend.node]
    exact h.node
  · rw [hend.windows]
    exact h.diverged i

theorem Flushed.of_setMclk (h : Flushed c (setMclk true s) e) : Flushed c s e :=
  ⟨h.resetN, h.moments, h.settled, h.sources, h.link, h.out, h.aq, h.arb, h.mem, h.orig, h.node, h.diverged, h.caused⟩

theorem flushed_host (c : PrioClass) (s : State) : (flushed c s).host = s.host := by
  rw [flushed, Event.requestDivergedAll_host]
  rfl

theorem flushed_node (c : PrioClass) (s : State) : (flushed c s).node = s.node := by
  rw [flushed, Event.requestDivergedAll_node]
  rfl

theorem flushed_held (c : PrioClass) (s : State) : (flushed c s).pq.held = s.pq.held := by
  rw [flushed_pq, PublishQueue.setClassList_held]

theorem HostLaw.hold_of_held (h : HostLaw s) : s.pq.held.isSome = true ↔ s.host.hold = .publishHold := by
  obtain ⟨-, -, -, -, -, hiff, -⟩ := h
  exact hiff

/-- The window records but for DIVERGED, which FLUSH may set. -/
theorem flushed_rest (c : PrioClass) (s : State) (i : WinIdx) :
    { (flushed c s).windows[i] with diverged := s.windows[i].diverged } = s.windows[i] := (flushed_marks c s).rest i

/-- The event of FLUSH while no write is held. -/
theorem flush_free (hs : Settled s) (hlaw : HostLaw s) (hmode : ModeLaw s) (hl : s.pq.classList c ≠ [])
    (hheld : s.pq.held = none) : ∃ e, (flushed c s).roomCheck.drainCheck = e ∧ Flushed c s e ∧
      e.pq = s.pq.setClassList c [] ∧ e.host = s.host ∧
      (∀ i : WinIdx, { e.windows[i] with diverged := s.windows[i].diverged } = s.windows[i]) ∧
      (s.node.mode = .draining → (s.pq.setClassList c []).total = 0 → s.orig.flight = [] →
        e.node.mode = .offline ∧ .drainDone ∈ e.raised) ∧
      (¬(s.node.mode = .draining ∧ (s.pq.setClassList c []).total = 0 ∧ s.orig.flight = []) →
        e.node.mode = s.node.mode) := by
  have hf := flushed_flushed hs hmode hl
  have hnone : (flushed c s).host.hold ≠ .publishHold := by
    rw [flushed_host]
    exact fun h => by simpa [hheld] using hlaw.hold_of_held.2 h
  refine ⟨_, rfl, ?_⟩
  rw [Event.roomCheck_of_not_held hnone]
  refine ⟨hf.drainCheck fun hm => hmode.announce_none ?_, (Event.drainCheck_pq _).trans (flushed_pq c s),
    (Event.drainCheck_host _).trans (flushed_host c s), fun i => ?_, fun hm hp hfl => ?_, fun hn => ?_⟩
  · rw [flushed_node] at hm
    rw [hm]
    decide
  · rw [Event.drainCheck_windows]
    exact flushed_rest c s i
  · rw [Event.drainCheck_of_drained (by rw [flushed_node, hm]) (by rw [flushed_pq, hp]) (by rw [hf.orig, hfl])]
    exact ⟨rfl, List.mem_append_right _ (.head _)⟩
  · rw [Event.drainCheck_of_not (by rwa [flushed_node, flushed_pq, hf.orig]), flushed_node]

/-- A write in PUBLISH_HOLD keeps a drain away. -/
theorem drainCheck_of_held {r : CaptureRequest} (hlaw : HostLaw s) (hmode : ModeLaw s) (hr : s.pq.held = some r)
    (hn : e.node = s.node) : e.drainCheck = e :=
  Event.drainCheck_of_not fun ⟨hm, _⟩ =>
    hmode.not_held_of_draining (by rw [← hn, hm]) (hlaw.hold_of_held.1 (by rw [hr]; rfl))

/-- The event of FLUSH that makes no room for the held request. -/
theorem flush_full {r : CaptureRequest} (hs : Settled s) (hlaw : HostLaw s) (hmode : ModeLaw s) (hl : s.pq.classList c ≠ [])
    (hr : s.pq.held = some r) (hfull : ¬(s.pq.setClassList c []).hasRoom r.cls = true) :
    ∃ e, (flushed c s).roomCheck.drainCheck = e ∧ Flushed c s e ∧ e.pq = s.pq.setClassList c [] ∧ e.host = s.host ∧
      e.node = s.node ∧
      ∀ i : WinIdx, { e.windows[i] with diverged := s.windows[i].diverged } = s.windows[i] := by
  refine ⟨_, rfl, ?_⟩
  rw [Event.roomCheck_of_full fun r' hr' => ?_, drainCheck_of_held hlaw hmode hr (flushed_node c s)]
  · exact ⟨flushed_flushed hs hmode hl, flushed_pq c s, flushed_host c s, flushed_node c s, flushed_rest c s⟩
  · rw [flushed_held, Option.mem_def, hr] at hr'
    cases hr'
    rwa [flushed_pq]

theorem roomMade_windows (r : CaptureRequest) (u : State) : (roomMade r u).windows = counted r.window u := rfl

theorem counted_getElem (i j : WinIdx) (u : State) : (counted j u)[i] =
    if i = j then { u.windows[i] with updates := u.windows[i].updates + 1 } else u.windows[i] := by
  unfold counted
  split
  next h => subst h; simp
  next h => rw [Fin.getElem_fin, Vector.getElem_set_ne _ _ fun hv => h (Fin.ext hv.symm)]; rfl

/-- The capture of the held request in the room made. -/
theorem Flushed.roomMade {r : CaptureRequest} {f : Event} (h : Flushed c s e) (hs : Settled s) (hmode : ModeLaw s)
    (hp : s.pq.total ≠ 0) (hn : e.node = s.node) (hf : f.toState = Machine.roomMade r e.toState) (hr : f.raised = e.raised) :
    Flushed c s f where
  resetN := by rw [hf]; exact h.resetN
  moments := by rw [hf]; exact h.moments
  settled := by
    have hout : f.out = s.out := by rw [hf]; exact h.out
    have hlink : f.link = s.link := by rw [hf]; exact h.link
    intro hidle hrun
    exact OutputSettled.of_not_fresh (s := s) hs.2.1 hout hlink (by rw [hf]; exact h.orig)
      (by rw [hf]; exact congrArg _ hn) (hs.unsent hmode hp (by rwa [hlink] at hrun)) hidle hrun
  sources := by rw [hf]; exact h.sources
  link := by rw [hf]; exact h.link
  out := by rw [hf]; exact h.out
  aq := by rw [hf]; exact h.aq
  arb := by rw [hf]; exact h.arb
  mem := by rw [hf]; exact h.mem
  orig := by rw [hf]; exact h.orig
  node := by rw [hf]; exact h.node
  diverged := by
    intro i
    rw [← h.diverged i, hf, roomMade_windows, counted_getElem]
    split <;> rfl
  caused p hp hk hd := by rw [hr]; exact h.caused p hp hk hd

/-- The event of FLUSH that makes room for the held request. -/
theorem flush_room {r : CaptureRequest} (hs : Settled s) (hlaw : HostLaw s) (hmode : ModeLaw s) (hl : s.pq.classList c ≠ [])
    (hr : s.pq.held = some r) (hroom : (s.pq.setClassList c []).hasRoom r.cls = true) :
    ∃ e, (flushed c s).roomCheck.drainCheck = e ∧ Flushed c s e ∧ e.pq = (s.pq.setClassList c []).captured r ∧
      e.host = { s.host with path := .requesting, hold := .noHold,
                             cycle := s.host.cycle.map fun c => { c with cls := .publish } } ∧
      e.node = s.node ∧
      ∀ i : WinIdx, { e.windows[i] with diverged := s.windows[i].diverged } =
        if i = r.window then { s.windows[i] with updates := s.windows[i].updates + 1 } else s.windows[i] := by
  have hmade := Event.roomCheck_of_room (e := flushed c s) ((flushed_held c s).trans hr)
    (by rw [flushed_host]; exact hlaw.hold_of_held.1 (by rw [hr]; rfl)) (by rw [flushed_pq]; exact hroom)
  obtain ⟨f, hf⟩ : ∃ f, f = (flushed c s).roomCheck := ⟨_, rfl⟩
  rw [← hf] at hmade ⊢
  have hst : f.toState = roomMade r (flushed c s).toState := by rw [hmade, roomMade_eq]
  have hnode : f.node = s.node := (congrArg State.node hst).trans (flushed_node c s)
  refine ⟨f, drainCheck_of_held hlaw hmode hr hnode, ?_, ?_, ?_, hnode, fun i => ?_⟩
  · exact (flushed_flushed hs hmode hl).roomMade hs hmode (classList_total hl) (flushed_node c s) hst (by rw [hmade]; rfl)
  · rw [hst]
    show (flushed c s).pq.captured r = _
    rw [flushed_pq]
  · rw [hst]
    show (endPublishHold .publish (heldWindow (flushed c s).toState) (flushed c s).toState).host = _
    rw [endPublishHold_host, flushed_host]
  · have hrest := flushed_rest c s i
    rw [hst, roomMade_windows, counted_getElem]
    split
    next => exact congrArg (fun w : Window => { w with updates := w.updates + 1 }) hrest
    next => exact hrest

theorem responding_windows (u : State) (k : Command) (args response : List Byte) :
    (u.responding k args response).windows = u.windows := rfl

/-- Settles O52: FLUSH with no write held, with one that stays held, and with one that finds room. -/
theorem flushEmptiesOneClass : Obligations.FlushEmptiesOneClass := by
  unfold Obligations.FlushEmptiesOneClass
  intro n s hs hlaw hmode _ hc
  refine ⟨exec_flush_refused hc, fun c hn => ⟨exec_flush_empty hc hn, fun hl => ?_⟩⟩
  have hexec := exec_flush hc hn hl
  cases hheld : s.pq.held with
  | none =>
    obtain ⟨e, he, hf, hpq, hhost, hrest, hdrain, hkept⟩ :=
      flush_free (s := setMclk true s) (c := c) hs hlaw hmode hl hheld
    obtain ⟨t, ht, hend, hpend, ⟨horig, hout, hlink, hsources, haq, hmem, hnode⟩, hdiv, hcaused⟩ :=
      hf.of_setMclk.ends hs hc.1
    rw [he, ht] at hexec
    obtain ⟨hh, ha⟩ := hend.host_stands hs hhost hf.aq hf.arb
    refine ⟨_, hexec, rfl, rfl, horig, hout, hlink, hsources, haq, hmem, hnode, hdiv, hcaused,
      fun _ => ⟨hend.pq.trans hpq, hh, ha, fun i => ?_, fun hm hp hfl => ?_, fun h => ?_⟩,
      fun r hr => (nomatch hr), fun r hr => (nomatch hr)⟩
    · rw [responding_windows, hend.windows]
      exact hrest i
    · obtain ⟨hoff, hdone⟩ := hdrain hm hp hfl
      exact ⟨(congrArg _ hend.node).trans hoff, hpend _ hdone⟩
    · exact (congrArg _ hend.node).trans (hkept h)
  | some r =>
    by_cases hroom : (s.pq.setClassList c []).hasRoom r.cls = true
    · obtain ⟨e, he, hf, hpq, hhost, hnode', hrest⟩ :=
        flush_room (s := setMclk true s) (c := c) hs hlaw hmode hl hheld hroom
      obtain ⟨t, ht, hend, hpend, ⟨horig, hout, hlink, hsources, haq, hmem, hnode⟩, hdiv, hcaused⟩ :=
        hf.of_setMclk.ends hs hc.1
      rw [he, ht] at hexec
      obtain ⟨hcycle, hhold, hpath, -, -⟩ :=
        hend.released hs hlaw (hlaw.hold_of_held.1 (by rw [hheld]; rfl)) hhost hf.aq hf.arb
      refine ⟨_, hexec, rfl, rfl, horig, hout, hlink, hsources, haq, hmem, hnode, hdiv, hcaused, (nomatch ·),
        fun r' hr' hn' => ?_, fun r' hr' _ => ?_⟩
      · cases hr'
        exact absurd (PublishQueue.hasRoom_iff.1 hroom) hn'
      · cases hr'
        refine ⟨hend.pq.trans hpq, hhold, hpath, fun k hk => ?_, hend.node.trans hnode', fun i => ?_⟩
        · rw [Option.mem_def] at hk
          rw [hk] at hcycle
          exact hcycle
        · rw [responding_windows, hend.windows]
          exact hrest i
    · obtain ⟨e, he, hf, hpq, hhost, hnode', hrest⟩ :=
        flush_full (s := setMclk true s) (c := c) hs hlaw hmode hl hheld hroom
      obtain ⟨t, ht, hend, hpend, ⟨horig, hout, hlink, hsources, haq, hmem, hnode⟩, hdiv, hcaused⟩ :=
        hf.of_setMclk.ends hs hc.1
      rw [he, ht] at hexec
      obtain ⟨hh, ha⟩ := hend.host_stands hs hhost hf.aq hf.arb
      refine ⟨_, hexec, rfl, rfl, horig, hout, hlink, hsources, haq, hmem, hnode, hdiv, hcaused, (nomatch ·),
        fun r' hr' _ => ⟨hend.pq.trans hpq, hh, ha, hend.node.trans hnode', fun i => ?_⟩, fun r' hr' hroom' => ?_⟩
      · rw [responding_windows, hend.windows]
        exact hrest i
      · cases hr'
        exact absurd (PublishQueue.hasRoom_iff.2 hroom') hroom

end Flush

end Sys2Proof.Machine
end

section
/-! SUPPORT. The Origination Unit's timers, its go-back and its give-up (R90 to R96), and the statements about the
timers. -/

namespace Sys2Proof.Machine

/-! ## The end of an event that may send -/

section Ends
variable {s t : State} {e : Event}

/-- The blocks that no commitment of an offer changes. -/
structure Beside (s t : State) : Prop where
  resetN : t.resetN = s.resetN
  link : t.link = s.link
  sources : t.sources = s.sources
  node : t.node = s.node
  mem : t.mem = s.mem
  aq : t.aq = s.aq
  arb : t.arb = s.arb
  attn : t.attn = s.attn

theorem Beside.refl (s : State) : Beside s s := ⟨rfl, rfl, rfl, rfl, rfl, rfl, rfl, rfl⟩

theorem Event.roomCheck_beside (h : Beside s e.toState) : Beside s e.roomCheck.toState := by
  rcases e.roomCheck_cases with hr | ⟨r, -, -, -, hr⟩
  · rwa [hr]
  · rw [hr]
    exact ⟨h.resetN, h.link, h.sources, h.node, h.mem, h.aq, h.arb, h.attn⟩

theorem Beside.startSending (h : Beside s t) (f : Frame) (n : Nat) : Beside s (startSending f n t) :=
  ⟨h.resetN, h.link, h.sources, h.node, h.mem, h.aq, h.arb, h.attn⟩

theorem Event.commitOffer_beside (e : Event) (o : Offer) : Beside e.toState (e.commitOffer o).1.toState := by
  cases o with
  | announce r => exact ⟨rfl, rfl, rfl, rfl, rfl, rfl, rfl, rfl⟩
  | resend f =>
    show Beside e.toState (match flightPosition e.orig.flight f.seq with | some i => e.on (resendAt i f) | none => e).toState
    cases flightPosition e.orig.flight f.seq <;> exact ⟨rfl, rfl, rfl, rfl, rfl, rfl, rfl, rfl⟩
  | fresh p => exact Event.roomCheck_beside (e := e.on _) ⟨rfl, rfl, rfl, rfl, rfl, rfl, rfl, rfl⟩

theorem Event.sendOffer_beside (e : Event) (o : Offer) : Beside e.toState (e.sendOffer o).toState :=
  (e.commitOffer_beside o).startSending _ 0

/-- The choice leaves all but the Output Arbiter's own items, or commits the offer. -/
theorem Event.chooseOutput_either (e : Event) : (∃ o, e.chooseOutput.toState = e.toState.withOut o) ∨
    ∃ o, originationOffer e.toState = some o ∧ e.chooseOutput = e.sendOffer o := by
  unfold Event.chooseOutput
  split
  next => exact .inl ⟨e.out, rfl⟩
  next =>
    split
    next o _ ho => exact .inr ⟨o, ho, rfl⟩
    next => exact .inl ⟨e.out, rfl⟩
    next o _ ho =>
      split
      next => exact .inr ⟨o, ho, rfl⟩
      next => exact .inl ⟨_, rfl⟩
    next => exact .inl ⟨_, rfl⟩

theorem Event.chooseOutput_beside (e : Event) : Beside e.toState e.chooseOutput.toState := by
  rcases e.chooseOutput_either with ⟨o, h⟩ | ⟨o, -, h⟩
  · rw [h]
    exact ⟨rfl, rfl, rfl, rfl, rfl, rfl, rfl, rfl⟩
  · rw [h]
    exact e.sendOffer_beside o

theorem Event.finish_eq (hm : e.moments = []) : e.finish = arbitrate (Event.begin e.commit).chooseOutput.toState :=
  e.finish_of_alone hm

/-- What the end of an event leaves of it, whatever the arbiters choose; with no entry beside a free port, the Apply
Queue stands as well. -/
theorem Event.finish_beside (hm : e.moments = []) :
    e.finish.resetN = e.resetN ∧ e.finish.link = e.link ∧ e.finish.sources = e.sources ∧ e.finish.node = e.node ∧
      e.finish.mem = e.mem ∧ ((e.arb.cycle = none → e.aq.entries = []) → e.finish.aq = e.aq) := by
  have h := (Event.begin e.commit).chooseOutput_beside
  rw [Event.finish_eq hm, arbitrate_resetN, arbitrate_link, arbitrate_sources, arbitrate_node, arbitrate_mem]
  refine ⟨h.resetN.trans e.commit_resetN, h.link.trans e.commit_link, h.sources.trans e.commit_sources,
    h.node.trans e.commit_node, h.mem.trans e.commit_mem, fun hq => ?_⟩
  have haq := h.aq.trans e.commit_aq
  have harb := h.arb.trans e.commit_arb
  generalize (Event.begin e.commit).chooseOutput.toState = u at haq harb ⊢
  rw [← haq]
  cases ha : u.arb.cycle with
  | none => exact arbitrate_aq_of_nil (by rw [haq]; exact hq (by rw [← harb]; exact ha))
  | some m => rw [arbitrate_of_busy u (by rw [ha]; rfl)]

/-- An idle link sends the announce record that is offered. -/
theorem Event.finish_announce (hm : e.moments = []) (hs : e.out.sending = none) (hl : e.link.outbound = .running)
    (hf : e.out.fifo = []) {r : AnnounceRecord} (ho : originationOffer e.toState = some (.announce r)) :
    e.finish.orig = { e.orig with announce := some { r with state := .sent, departure := e.node.timebase } } ∧
      e.finish.out = { fifo := [], sending := some (r.frame e.node.nodeId), starvation := 0 } ∧
      e.finish.pq = e.pq ∧ e.finish.windows = e.windows := by
  rw [Event.finish_eq hm, Event.chooseOutput_of_offer (e := Event.begin e.commit) ((congrArg _ e.commit_out).trans hs)
    ((congrArg _ e.commit_link).trans hl) ((congrArg _ e.commit_out).trans hf) (e.originationOffer_commit.trans ho),
    arbitrate_orig, arbitrate_out, arbitrate_pq, arbitrate_windows]
  refine ⟨?_, ?_, e.commit_pq, e.commit_windows⟩
  · show { e.commit.orig with announce := some { r with state := .sent, departure := e.commit.node.timebase } } = _
    rw [e.commit_orig, e.commit_node]
  · show { e.commit.out with sending := some (r.frame e.commit.node.nodeId), starvation := 0 } = _
    rw [e.commit_out, e.commit_node, ← hf]

/-- An idle link sends the entry at the resend pointer. -/
theorem Event.finish_resend (hm : e.moments = []) (hs : e.out.sending = none) (hl : e.link.outbound = .running)
    (hf : e.out.fifo = []) {f : IflEntry} (ho : originationOffer e.toState = some (.resend f)) {i : Nat}
    (hi : flightPosition e.orig.flight f.seq = some i) :
    e.finish.orig = { e.orig with
      flight := e.orig.flight.set i { f with state := .sent, departure := e.node.timebase }
      resend := (e.orig.flight[i + 1]?).map IflEntry.seq } ∧
      e.finish.out = { fifo := [], sending := some (f.frame e.node.nodeId), starvation := 0 } ∧
      e.finish.pq = e.pq ∧ e.finish.windows = e.windows := by
  rw [Event.finish_eq hm, Event.chooseOutput_of_offer (e := Event.begin e.commit) ((congrArg _ e.commit_out).trans hs)
    ((congrArg _ e.commit_link).trans hl) ((congrArg _ e.commit_out).trans hf) (e.originationOffer_commit.trans ho),
    sendOffer_resend (s := e.commit) (by rw [e.commit_orig]; exact hi), arbitrate_orig, arbitrate_out, arbitrate_pq,
    arbitrate_windows]
  refine ⟨?_, ?_, e.commit_pq, e.commit_windows⟩
  · show { e.commit.orig with
      flight := e.commit.orig.flight.set i { f with state := .sent, departure := e.commit.node.timebase }
      resend := (e.commit.orig.flight[i + 1]?).map IflEntry.seq } = _
    rw [e.commit_orig, e.commit_node]
  · show { e.commit.out with sending := some (f.frame e.commit.node.nodeId), starvation := 0 } = _
    rw [e.commit_out, e.commit_node, ← hf]

/-- A busy or quiet link sends nothing. -/
theorem Event.finish_unsent (hm : e.moments = []) (hb : e.out.sending.isSome = true ∨ e.link.outbound ≠ .running) :
    e.finish.orig = e.orig ∧ e.finish.out = e.out ∧ e.finish.pq = e.pq ∧ e.finish.windows = e.windows := by
  have h : Ended e e.finish := Event.finish_ended (.inl hm) fun hs hr =>
    hb.elim (fun hb => by simp [hs] at hb) fun hb => absurd hr hb
  exact ⟨h.orig, h.out, h.pq, h.windows⟩

end Ends

/-! ## Levels short of isolation (R152) -/

theorem NodeControl.levelAfter_ne_isolated {n : NodeControl} (hl : n.level ≠ .isolated) (hlif : n.lif.toNat < 240)
    (hrtf : n.rtf.toNat < 240) : n.levelAfter ≠ .isolated := by
  unfold NodeControl.levelAfter
  rw [if_neg (by omega)]
  split
  · exact fun h => nomatch h
  · split
    · exact fun h => nomatch h
    · exact hl

/-- The counters of a running node are below the isolation level. -/
theorem LevelLaw.counts {s : State} (h : LevelLaw s) (hm : s.node.mode ≠ .offline) :
    s.node.lif.toNat < 240 ∧ s.node.rtf.toNat < 240 := by
  obtain ⟨hi, hn, hd⟩ := h
  cases hl : s.node.level with
  | isolated => exact absurd (hi hl) hm
  | normal =>
    obtain ⟨h1, h2⟩ := hn hl
    exact ⟨by omega, by omega⟩
  | degraded => exact hd hl

/-- Node Control after a counted report. -/
def Report.counted (r : Report) (n : NodeControl) : NodeControl := { r.apply n with level := (r.apply n).levelAfter }

/-! ## The go-back (R91, R92) -/

section GoBack
variable {e : Event} {t : State} {h : IflEntry} {rest : List IflEntry} {objection : Bool} {r : Report}

theorem Event.goBack_of_head (hf : e.orig.flight = h :: rest) (hr : h.retry ≠ e.node.params.retryLimit) :
    e.goBack objection = e.on (goBackFlight objection) := by
  unfold Event.goBack
  rw [hf]
  exact if_neg hr

theorem Event.goBackReported_kept (hf : e.orig.flight = h :: rest) (hr : h.retry ≠ e.node.params.retryLimit)
    (hm : e.node.mode ≠ .offline) (hk : (r.apply e.node).levelAfter ≠ .isolated) :
    (e.goBackReported objection r).toState = (goBackFlight objection e.toState).withNode (r.counted e.node) := by
  unfold Event.goBackReported
  rw [Event.goBack_of_head hf hr]
  exact (Event.reportUnder_kept (e := e.on (goBackFlight objection)) hm (.inr hk)).1

/-- The entry whose copy the go-back offers stands at the head. -/
theorem flightPosition_head (f : IflEntry) (rest : List IflEntry) : flightPosition (f :: rest) f.seq = some 0 := by
  simp [flightPosition]

/-- A go-back that starts a backoff (R92). -/
abbrev backsOff (objection : Bool) (n : NodeControl) : Prop := objection = true ∧ n.params.nakBackoff ≠ 0

theorem goBackFlight_backoff (objection : Bool) (s : State) : (goBackFlight objection s).orig.backoff =
    if backsOff objection s.node then some s.node.timebase else none := by
  show (if objection && s.node.params.nakBackoff != 0 then some s.node.timebase else none) = _
  simp [backsOff]

theorem goBackFlight_orig (objection : Bool) (s : State) : (goBackFlight objection s).orig = { s.orig with
    flight := s.orig.flight.map IflEntry.goBack
    resend := s.orig.flight.head?.map IflEntry.seq
    backoff := if backsOff objection s.node then some s.node.timebase else none } := by
  rw [← goBackFlight_backoff]
  rfl

/-- What a go-back leaves: the entries wait, or the head's copy goes out at once on an idle link. -/
structure WentBack (objection : Bool) (r : Report) (e : Event) (t : State) : Prop where
  node : t.node = r.counted e.node
  link : t.link = e.link
  sources : t.sources = e.sources
  mem : t.mem = e.mem
  aq : t.aq = e.aq
  pq : t.pq = e.pq
  windows : t.windows = e.windows
  nextSeq : t.orig.nextSeq = e.orig.nextSeq
  retry : t.orig.flight.map IflEntry.retry = e.orig.flight.map (fun x => x.retry + 1)
  seq : t.orig.flight.map IflEntry.seq = e.orig.flight.map IflEntry.seq
  backoff : ¬backsOff objection e.node → t.orig.backoff = none
  waits : backsOff objection e.node ∨ e.out.sending.isSome = true →
    t.orig = (goBackFlight objection e.toState).orig ∧ t.out = e.out
  sends : ¬backsOff objection e.node → e.out.sending = none → e.link.outbound = .running →
    t.out = { fifo := [], sending := some (IflEntry.frame { h with retry := h.retry + 1 } e.node.nodeId), starvation := 0 } ∧
      t.orig.resend = rest.head?.map IflEntry.seq

/-- The state of an event in which a go-back has been made and reported. -/
abbrev Turned (objection : Bool) (r : Report) (e f : Event) : Prop :=
  f.toState = (goBackFlight objection e.toState).withNode (r.counted e.node)

section Turned
variable {f : Event} (hst : Turned objection r e f)
include hst

theorem turned_orig : f.orig = (goBackFlight objection e.toState).orig := by rw [hst]; rfl

theorem turned_flight (hf : e.orig.flight = h :: rest) : f.orig.flight = h.goBack :: rest.map IflEntry.goBack := by
  rw [turned_orig hst]
  show e.orig.flight.map _ = _
  rw [hf]
  rfl

theorem turned_resend (hf : e.orig.flight = h :: rest) : f.orig.resend = some h.seq := by
  rw [turned_orig hst]
  show e.orig.flight.head?.map _ = _
  rw [hf]
  rfl

theorem turned_backoff : f.orig.backoff = if backsOff objection e.node then some e.node.timebase else none := by
  rw [turned_orig hst, goBackFlight_backoff]

/-- While a backoff runs, nothing is offered. -/
theorem turned_settled (ho : OutputSettled e.toState) (hann : e.orig.announce = none) (hf : e.orig.flight = h :: rest)
    (hb : backsOff objection e.node ∨ e.out.sending.isSome = true ∨ e.link.outbound ≠ .running) :
    OutputSettled f.toState := by
  have hout : f.out = e.out := by rw [hst]; rfl
  have hlink : f.link = e.link := by rw [hst]; rfl
  intro hs hl
  rw [hout] at hs ⊢
  rw [hlink] at hl
  have hbo : backsOff objection e.node := by simpa [hs, hl] using hb
  refine ⟨(ho hs hl).1, ?_⟩
  have hfann : announceOffer f.toState = none := by simp [announceOffer, hst, goBackFlight, hann]
  unfold originationOffer
  rw [hfann, turned_resend hst hf, turned_backoff hst, if_pos hbo]
  rfl

/-- Without a backoff the head's copy is offered. -/
theorem turned_offer (hann : e.orig.announce = none) (hf : e.orig.flight = h :: rest)
    (hn : ¬backsOff objection e.node) : originationOffer f.toState = some (.resend h.goBack) := by
  have hflight := turned_flight hst hf
  have hresend := turned_resend hst hf
  refine originationOffer_resend (by rw [turned_orig hst]; exact hann) (by rw [hresend]; rfl)
    (by rw [turned_backoff hst, if_neg hn]) ?_
  rw [resendEntry, hresend, Option.bind_some, hflight, show h.seq = h.goBack.seq from rfl, flightPosition_head]
  rfl

/-- The blocks beside the offer, at the end of the event. -/
theorem turned_beside (hm : e.moments = []) (hq : e.arb.cycle = none → e.aq.entries = []) :
    f.finish.node = r.counted e.node ∧ f.finish.link = e.link ∧ f.finish.sources = e.sources ∧
      f.finish.mem = e.mem ∧ f.finish.aq = e.aq := by
  obtain ⟨-, hlink, hsources, hnode, hmem, haq⟩ :=
    Event.finish_beside (e := f) ((congrArg State.moments hst).trans hm)
  rw [hlink, hsources, hnode, hmem, haq (by rw [hst]; exact hq), hst]
  exact ⟨rfl, rfl, rfl, rfl, rfl⟩

end Turned

theorem goneBack_retries (l : List IflEntry) :
    (l.map IflEntry.goBack).map IflEntry.retry = l.map fun x => x.retry + 1 := by
  rw [List.map_map]
  rfl

theorem goneBack_seqs (l : List IflEntry) : (l.map IflEntry.goBack).map IflEntry.seq = l.map IflEntry.seq := by
  rw [List.map_map]
  rfl

theorem Report.counted_self (r : Report) (n : NodeControl) :
    (r.counted n).nodeId = n.nodeId ∧ (r.counted n).mode = n.mode ∧ (r.counted n).timebase = n.timebase := by
  cases r <;> exact ⟨rfl, rfl, rfl⟩

theorem Event.goes_back (hm : e.moments = []) (ho : OutputSettled e.toState)
    (hq : e.arb.cycle = none → e.aq.entries = []) (hann : e.orig.announce = none) (hmode : e.node.mode ≠ .offline)
    (hf : e.orig.flight = h :: rest) (hr : h.retry ≠ e.node.params.retryLimit)
    (hk : (r.apply e.node).levelAfter ≠ .isolated) :
    WentBack (h := h) (rest := rest) objection r e (e.goBackReported objection r).finish := by
  have hst : Turned objection r e (e.goBackReported objection r) := Event.goBackReported_kept hf hr hmode hk
  generalize e.goBackReported objection r = f at hst ⊢
  obtain ⟨hnode, hlink, hsources, hmem, haq⟩ := turned_beside hst hm hq
  have hfm : f.moments = [] := (congrArg State.moments hst).trans hm
  have horig := turned_orig hst
  have hout : f.out = e.out := by rw [hst]; rfl
  have hflink : f.link = e.link := by rw [hst]; rfl
  have hpq : f.pq = e.pq := by rw [hst]; rfl
  have hwin : f.windows = e.windows := by rw [hst]; rfl
  by_cases hb : backsOff objection e.node ∨ e.out.sending.isSome = true ∨ e.link.outbound ≠ .running
  · have hend := Event.finish_ended (.inl hfm) (turned_settled hst ho hann hf hb)
    have hfo := hend.orig.trans horig
    refine ⟨hnode, hlink, hsources, hmem, haq, hend.pq.trans hpq, hend.windows.trans hwin, by rw [hfo]; rfl,
      by rw [hfo]; exact goneBack_retries _, by rw [hfo]; exact goneBack_seqs _, fun hn => ?_,
      fun _ => ⟨hfo, hend.out.trans hout⟩, fun hn hs hl => ?_⟩
    · rw [hend.orig, turned_backoff hst, if_neg hn]
    · simp [hn, hs, hl] at hb
  · simp only [not_or, Option.not_isSome_iff_eq_none, not_not] at hb
    obtain ⟨hnb, hs, hl⟩ := hb
    have hflight := turned_flight hst hf
    obtain ⟨h1, h2, h3, h4⟩ := Event.finish_resend hfm (by rw [hout, hs]) (by rw [hflink, hl])
      (by rw [hout]; exact (ho hs hl).1) (turned_offer hst hann hf hnb) (by rw [hflight]; exact flightPosition_head _ _)
    rw [hflight] at h1
    refine ⟨hnode, hlink, hsources, hmem, haq, h3.trans hpq, h4.trans hwin, by rw [h1, horig]; rfl,
      by rw [h1, hf]; simp [IflEntry.goBack], by rw [h1, hf]; simp [IflEntry.goBack], fun _ => ?_,
      fun hw => by simp [hnb, hs] at hw, fun _ _ _ => ⟨?_, ?_⟩⟩
    · rw [h1]
      exact (turned_backoff hst).trans (if_neg hnb)
    · rw [h2, show f.node = r.counted e.node by rw [hst]; rfl, (r.counted_self e.node).1]
      rfl
    · rw [h1]
      cases rest <;> rfl

end GoBack

/-! ## The timers (R90, R92, R96) -/

section Timers
variable {s : State} {h : IflEntry} {rest : List IflEntry}

theorem flight_cons (hh : s.orig.flight.head? = some h) : s.orig.flight = h :: s.orig.flight.tail := by
  cases hf : s.orig.flight with
  | nil => rw [hf] at hh; cases hh
  | cons x l => rw [hf] at hh; cases hh; rfl

theorem exec_returnTimer (hf : s.orig.flight = h :: rest) (hst : h.state = .sent)
    (ht : s.node.params.rto.toNat ≤ (s.node.timebase - h.departure).toNat) :
    exec .returnTimerExpiry s = .next ((Event.begin s).goBackReported false .timerExpiry).finish := by
  refine if_pos ?_
  simp [returnTimerDue, hf, hst, elapsed, ht, -BitVec.toNat_sub]

theorem ModeLaw.announce_none_of_flight (hm : ModeLaw s) (hf : s.orig.flight = h :: rest) : s.orig.announce = none := by
  refine hm.announce_none fun hj => ?_
  rw [hm.2.2.1 hj] at hf
  cases hf

theorem ModeLaw.running_of_flight (hm : ModeLaw s) (hf : s.orig.flight = h :: rest) : s.node.mode ≠ .offline := by
  intro ho
  rw [(hm.1 ho).2] at hf
  cases hf

/-- An RTF report short of 240 does not isolate a running node. -/
theorem LevelLaw.not_isolating (hl : LevelLaw s) (hm : s.node.mode ≠ .offline) {r : Report}
    (hr : r = .timerExpiry ∨ r = .outOfOrder ∨ r = .objected) (hn : s.node.rtf.toNat + 6 < 240) :
    (r.apply s.node).levelAfter ≠ .isolated := by
  refine NodeControl.levelAfter_ne_isolated (by rw [Report.apply_level]; exact hl.unisolated hm) ?_ ?_
  · rcases hr with rfl | rfl | rfl <;> exact (hl.counts hm).1
  · rcases hr with rfl | rfl | rfl <;>
      simp only [Report.apply, satAdd_toNat, Config.lostReturnWeight, Config.objectionWeight] <;> omega

theorem timerExpiry_rtf (n : NodeControl) (hn : n.rtf.toNat + 6 < 240) :
    (Report.timerExpiry.counted n).rtf.toNat = n.rtf.toNat + 6 := by
  show (satAdd n.rtf Config.lostReturnWeight).toNat = _
  rw [satAdd_toNat, Config.lostReturnWeight]
  omega

end Timers

/-- Settles O34: the go-back by the return timer, whose list waits or whose head's copy is sent. -/
theorem returnTimerExpiryGoesBack : Obligations.ReturnTimerExpiryGoesBack := by
  intro h s hs hmode hlevel _ _ hhead hst ht hr hn
  have hf := flight_cons hhead
  have hrun := hmode.running_of_flight hf
  have hb := Event.goes_back (e := Event.begin s) (objection := false) (r := .timerExpiry) hs.1 hs.2.1
    (fun hc => (hs.2.2 hc).2) (hmode.announce_none_of_flight hf) hrun hf hr
    (hlevel.not_isolating hrun (.inl rfl) hn)
  have hnb : ¬backsOff false s.node := fun hb => nomatch hb.1
  refine ⟨_, exec_returnTimer hf hst ht, ?_⟩
  generalize ((Event.begin s).goBackReported false .timerExpiry).finish = t at hb
  refine ⟨by rw [hb.node]; exact timerExpiry_rtf s.node hn, by rw [hb.node]; rfl, by rw [hb.node]; rfl, hb.sources, hb.aq, hb.pq, hb.mem, hb.windows, hb.backoff hnb, hb.nextSeq, hb.retry, hb.seq,
    fun hbusy => ?_, fun hidle hl => ?_⟩
  · obtain ⟨horig, hout⟩ := hb.waits (.inr hbusy)
    refine ⟨hout, ?_, fun x hx => ?_⟩
    · rw [horig]
      show s.orig.flight.head?.map _ = _
      rw [hhead]
      rfl
    · rw [horig] at hx
      obtain ⟨y, -, rfl⟩ := List.mem_map.1 hx
      rfl
  · exact hb.sends hnb hidle hl

section AnnounceTimer
variable {s : State} {r : AnnounceRecord}

/-- The announce record with its next attempt (R96). -/
def AnnounceRecord.again (r : AnnounceRecord) : AnnounceRecord := { r with retry := r.retry + 1, state := .awaitingSend }

/-- The event of the announce timer. -/
def announceRetried (s : State) : Event := ((Event.begin s).on retryAnnounce).report .timerExpiry

theorem exec_announceTimer (ha : s.orig.announce = some r) (hst : r.state = .sent)
    (ht : s.node.params.rto.toNat ≤ (s.node.timebase - r.departure).toNat) :
    exec .announceTimerExpiry s = .next (announceRetried s).finish := by
  refine if_pos ?_
  simp [announceTimerDue, ha, hst, elapsed, ht, -BitVec.toNat_sub]

theorem announceRetried_state (ha : s.orig.announce = some r) (hm : s.node.mode ≠ .offline)
    (hk : (Report.timerExpiry.apply s.node).levelAfter ≠ .isolated) : (announceRetried s).toState =
      (s.withOrig { s.orig with announce := some r.again }).withNode (Report.timerExpiry.counted s.node) := by
  have hra : retryAnnounce s = s.withOrig { s.orig with announce := some r.again } := by
    rw [retryAnnounce, ha]
    rfl
  refine (Event.reportUnder_kept (e := (Event.begin s).on retryAnnounce) hm (.inr hk)).1.trans ?_
  show (retryAnnounce s).withNode (Report.timerExpiry.counted s.node) = _
  rw [hra]

end AnnounceTimer

section BackoffTimer
variable {s : State} {start : Time}

theorem exec_backoff (hb : s.orig.backoff = some start)
    (ht : s.node.params.nakBackoff.toNat ≤ (s.node.timebase - start).toNat) :
    exec .backoffExpiry s = .next (Event.begin (s.withOrig { s.orig with backoff := none })).finish := by
  refine if_pos ?_
  simp [backoffDue, hb, elapsed, ht, -BitVec.toNat_sub]

/-- While the backoff runs the resend pointer stands at the head (R92). -/
theorem FlightLaw.resend_of_backoff {h : IflEntry} {rest : List IflEntry} (hl : FlightLaw s)
    (hb : s.orig.backoff = some start) (hf : s.orig.flight = h :: rest) : s.orig.resend = some h.seq := by
  obtain ⟨done, todo, hsplit⟩ := (flightLaw_iff s).1 hl
  obtain ⟨-, rfl⟩ := hsplit.backoff (by rw [hb]; rfl)
  have htodo : todo = h :: rest := hsplit.flight.symm.trans hf
  rw [hsplit.pointer, htodo]
  rfl

end BackoffTimer

/-- Settles O36: the announce timer on a busy and on an idle link, and the end of the backoff on each. -/
theorem announceAndBackoffTimersExpire : Obligations.AnnounceAndBackoffTimersExpire := by
  refine ⟨fun r s hs hmode hlevel _ ha hst ht hn => ?_, fun start s hs hb ht hbusy => ?_,
    fun start h rest s hs hmode hflight hb hf ht hidle hl => ?_⟩
  · have hj := hmode.mode_of_announce ha
    have hrun : s.node.mode ≠ .offline := by rw [hj]; exact fun h => nomatch h
    have hstate := announceRetried_state ha hrun (hlevel.not_isolating hrun (.inl rfl) hn)
    refine ⟨_, exec_announceTimer ha hst ht, ?_⟩
    generalize announceRetried s = f at hstate
    have hfm : f.moments = [] := (congrArg State.moments hstate).trans hs.1
    obtain ⟨-, -, hsources, hnode, hmem, haq⟩ := Event.finish_beside hfm
    have horig : f.orig = { s.orig with announce := some r.again } := by rw [hstate]; rfl
    have hfnode : f.finish.node = Report.timerExpiry.counted s.node := by rw [hnode, hstate]; rfl
    have hfsources : f.finish.sources = s.sources := by rw [hsources, hstate]; rfl
    have hfaq : f.finish.aq = s.aq := by
      rw [haq (by rw [hstate]; exact fun hc => (hs.2.2 hc).2), hstate]
      rfl
    have hfmem : f.finish.mem = s.mem := by rw [hmem, hstate]; rfl
    have hrtf : f.finish.node.rtf.toNat = s.node.rtf.toNat + 6 := by rw [hfnode]; exact timerExpiry_rtf s.node hn
    have hmode' : f.finish.node.mode = .joining := by rw [hfnode]; exact hj
    by_cases hb : s.out.sending.isSome = true ∨ s.link.outbound ≠ .running
    · obtain ⟨h1, h2, h3, h4⟩ := Event.finish_unsent hfm (by rw [hstate]; exact hb)
      refine ⟨hrtf, hmode', hfsources, hfaq, h3.trans (by rw [hstate]; rfl), hfmem, h4.trans (by rw [hstate]; rfl),
        fun _ => ⟨h2.trans (by rw [hstate]; rfl), h1.trans horig⟩, fun hidle hl => ?_⟩
      simp [hidle, hl] at hb
    · simp only [not_or, Option.not_isSome_iff_eq_none, not_not] at hb
      obtain ⟨hidle, hl⟩ := hb
      have hoff : originationOffer f.toState = some (.announce r.again) :=
        originationOffer_announce (by rw [horig]) (by rw [hstate]; exact hj) rfl
      obtain ⟨h1, h2, h3, h4⟩ := Event.finish_announce hfm (by rw [hstate]; exact hidle) (by rw [hstate]; exact hl)
        (by rw [hstate]; exact (hs.2.1 hidle hl).1) hoff
      refine ⟨hrtf, hmode', hfsources, hfaq, h3.trans (by rw [hstate]; rfl), hfmem, h4.trans (by rw [hstate]; rfl),
        fun hbusy => by simp [hidle] at hbusy, fun _ _ => ?_⟩
      rw [h1, hstate]
      rfl
  · rw [exec_backoff hb ht, Event.finish_of_output hs.1 (OutputSettled.of_busy hbusy), Event.commit_of_nil _ rfl]
    exact congrArg _ (arbitrate_still hs.2.2)
  · have hres := hflight.resend_of_backoff hb hf
    have hoff : originationOffer (s.withOrig { s.orig with backoff := none }) = some (.resend h) := by
      refine originationOffer_resend (s := s.withOrig { s.orig with backoff := none })
        (hmode.announce_none_of_flight hf) ((congrArg Option.isSome hres).trans rfl) rfl ?_
      show resendEntry { s.orig with backoff := none } = _
      rw [resendEntry, hres, Option.bind_some]
      show (flightPosition s.orig.flight h.seq).bind (fun i => s.orig.flight[i]?) = _
      rw [hf, flightPosition_head]
      rfl
    have hpos : flightPosition s.orig.flight h.seq = some 0 := by rw [hf, flightPosition_head]
    have hsent := sendOffer_resend (s := s.withOrig { s.orig with backoff := none }) hpos
    rw [exec_backoff hb ht, Event.finish_eq hs.1, Event.commit_of_nil _ rfl]
    rw [Event.chooseOutput_of_offer (e := Event.begin (Event.begin (s.withOrig { s.orig with backoff := none })).toState)
      hidle hl (hs.2.1 hidle hl).1 hoff]
    refine (congrArg (fun e : Event => Host.Outcome.next (arbitrate e.toState)) hsent).trans ?_
    dsimp only
    rw [arbitrate_still (by exact hs.2.2)]
    simp only [resendAt, State.withOrig_orig, hf]
    cases rest <;> rfl

end Sys2Proof.Machine
end

section
/-! SUPPORT. The give-up (R93, R94) and the report that follows it. -/

namespace Sys2Proof.Machine

/-! ## A report after an operation -/

section Reports
variable {e g f : Event} {m : Mode} {r : Report}

/-- A counted report sets Node Control's counters and level, or isolates the node. -/
theorem Event.reportUnder_either (hm : m ≠ .offline) :
    ((e.reportUnder m r).toState = e.toState.withNode (r.counted e.node) ∧
      ∀ o ∈ e.raised, o ∈ (e.reportUnder m r).raised) ∨
    (e.node.level ≠ .isolated ∧ (r.apply e.node).levelAfter = .isolated ∧
      e.reportUnder m r = (e.on fun s => s.withNode (r.apply s.node)).isolate) := by
  by_cases h : e.node.level = .isolated ∨ (r.apply e.node).levelAfter ≠ .isolated
  · obtain ⟨h1, h2⟩ := Event.reportUnder_kept (e := e) (r := r) hm h
    exact .inl ⟨h1, fun o ho => by rw [h2]; exact List.mem_append_left _ ho⟩
  · obtain ⟨hl, hi⟩ := not_or.1 h
    exact .inr ⟨hl, not_not.1 hi, Event.reportUnder_isolating hm hl (not_not.1 hi)⟩

theorem Event.on_withNode_isolate_marks (e : Event) (n : NodeControl → NodeControl) :
    e.Marks (IsolationAsks e.toState) (e.on fun s => s.withNode (n s.node)).isolate :=
  Event.Marks.none_trans (f := e.on fun s => s.withNode (n s.node)) rfl (fun _ ho => ho)
    (e.on fun s => s.withNode (n s.node)).isolate_marks

theorem Event.reportUnder_marks (e : Event) (m : Mode) (r : Report) : ∃ P, e.Marks P (e.reportUnder m r) := by
  by_cases hm : m = .offline
  · rw [hm, Event.reportUnder_offline]
    exact ⟨_, .none rfl fun _ ho => ho⟩
  · rcases Event.reportUnder_either (e := e) (r := r) hm with ⟨h, hr⟩ | ⟨-, -, h⟩
    · exact ⟨_, .none (by rw [h]; rfl) hr⟩
    · rw [h]
      exact ⟨_, e.on_withNode_isolate_marks _⟩

end Reports

/-! ## The give-up -/

section GiveUp
variable {e f : Event} {q : Byte} {h : IflEntry} {rest : List IflEntry} {objection : Bool} {r : Report}

/-- The event in which the In-Flight List is given up, before the mode changes (R93). -/
def failed (q : Byte) (e : Event) : Event := (e.raise (.deliveryFailed q)).discardFlight

theorem failed_marks (q : Byte) (e : Event) : e.Marks (fun j => ∃ x ∈ e.orig.flight, x.window = j) (failed q e) :=
  Event.Marks.none_trans (f := e.raise (.deliveryFailed q)) rfl (fun _ ho => List.mem_append_left _ ho)
    (e.raise (.deliveryFailed q)).discardFlight_marks

theorem deliveryFailed_raised (q : Byte) (e : Event) : .deliveryFailed q ∈ (failed q e).raised :=
  (e.raise (.deliveryFailed q)).discardFlight_marks.raised _ (List.mem_append_right _ (.head _))

theorem failed_orig (q : Byte) (e : Event) :
    (failed q e).orig = { e.orig with flight := [], resend := none, backoff := none } := by
  rw [failed, Event.discardFlight_orig]
  rfl

/-- The give-up of an ACTIVE node (R94). -/
def rejoins (e : Event) : Event := e.on fun s => createAnnounce (setMode .joining s)

/-- The give-up of a DRAINING node (R94). -/
def endsDrain (e : Event) : Event := (e.discardPq.on (setMode .offline)).raise .drainDone

theorem failed_node (q : Byte) (e : Event) : (failed q e).node = e.node := Event.discardFlight_node _

theorem Event.giveUp_active (hm : e.node.mode = .active) (q : Byte) : e.giveUp q = rejoins (failed q e) := by
  have hn : (e.raise (.deliveryFailed q)).discardFlight.node.mode = .active := (congrArg _ (failed_node q e)).trans hm
  simp only [Event.giveUp, hn]
  rfl

theorem Event.giveUp_draining (hm : e.node.mode = .draining) (q : Byte) : e.giveUp q = endsDrain (failed q e) := by
  have hn : (e.raise (.deliveryFailed q)).discardFlight.node.mode = .draining := (congrArg _ (failed_node q e)).trans hm
  simp only [Event.giveUp, hn]
  rfl

/-- What a give-up that has added n to RTF and asked DIVERGED for the windows in P leaves of the event it began in. -/
structure GaveUp (n : Nat) (P : WinIdx → Prop) (e f : Event) : Prop where
  resetN : f.resetN = e.resetN
  moments : f.moments = e.moments
  link : f.link = e.link
  out : f.out = e.out
  sources : f.sources = e.sources
  mem : f.mem = e.mem
  aq : f.aq = e.aq
  arb : f.arb = e.arb
  flight : f.orig.flight = []
  resend : f.orig.resend = none
  backoff : f.orig.backoff = none
  nextSeq : f.orig.nextSeq = e.orig.nextSeq
  lif : f.node.lif = e.node.lif
  rtf : f.node.rtf.toNat = min 255 (e.node.rtf.toNat + n)
  failed : ∃ q, .deliveryFailed q ∈ f.raised
  marks : ∃ Q, e.Marks Q f ∧ ∀ i, P i → Q i

theorem failed_gaveUp (q : Byte) (e : Event) : GaveUp 0 (fun i => ∃ x ∈ e.orig.flight, x.window = i) e (failed q e) where
  resetN := Event.discardFlight_resetN _
  moments := Event.discardFlight_moments _
  link := Event.discardFlight_link _
  out := Event.discardFlight_out _
  sources := Event.discardFlight_sources _
  mem := Event.discardFlight_mem _
  aq := Event.discardFlight_aq _
  arb := Event.discardFlight_arb _
  flight := by rw [failed_orig]
  resend := by rw [failed_orig]
  backoff := by rw [failed_orig]
  nextSeq := by rw [failed_orig]
  lif := by rw [failed_node]
  rtf := by rw [failed_node]; have := e.node.rtf.isLt; omega
  failed := ⟨q, deliveryFailed_raised q e⟩
  marks := ⟨_, failed_marks q e, fun _ h => h⟩

section After
variable {n : Nat} {P : WinIdx → Prop} {m : Mode}

theorem GaveUp.rejoins (h : GaveUp n P e f) : GaveUp n P e (rejoins f) :=
  ⟨h.resetN, h.moments, h.link, h.out, h.sources, h.mem, h.aq, h.arb, h.flight, h.resend, h.backoff, h.nextSeq,
    h.lif, h.rtf, h.failed, h.marks.imp fun _ ⟨hm, hq⟩ => ⟨hm.trans_none rfl fun _ ho => ho, hq⟩⟩

theorem GaveUp.discardPq (h : GaveUp n P e f) :
    GaveUp n (fun i => P i ∨ ∃ p ∈ f.pq.entries, p.window = i) e f.discardPq where
  resetN := (Event.discardPq_resetN _).trans h.resetN
  moments := (Event.discardPq_moments _).trans h.moments
  link := (Event.discardPq_link _).trans h.link
  out := (Event.discardPq_out _).trans h.out
  sources := (Event.discardPq_sources _).trans h.sources
  mem := (Event.discardPq_mem _).trans h.mem
  aq := (Event.discardPq_aq _).trans h.aq
  arb := (Event.discardPq_arb _).trans h.arb
  flight := by rw [Event.discardPq_orig]; exact h.flight
  resend := by rw [Event.discardPq_orig]; exact h.resend
  backoff := by rw [Event.discardPq_orig]; exact h.backoff
  nextSeq := by rw [Event.discardPq_orig]; exact h.nextSeq
  lif := by rw [Event.discardPq_node]; exact h.lif
  rtf := by rw [Event.discardPq_node]; exact h.rtf
  failed := h.failed.imp fun _ hq => f.discardPq_marks.raised _ hq
  marks := by
    obtain ⟨Q, hm, hq⟩ := h.marks
    exact ⟨_, hm.trans f.discardPq_marks, fun i => Or.imp_left (hq i)⟩

theorem GaveUp.drained (h : GaveUp n P e f) : GaveUp n P e ((f.on (setMode .offline)).raise .drainDone) :=
  ⟨h.resetN, h.moments, h.link, h.out, h.sources, h.mem, h.aq, h.arb, h.flight, h.resend, h.backoff, h.nextSeq,
    h.lif, h.rtf, h.failed.imp fun _ hq => List.mem_append_left _ hq,
    h.marks.imp fun _ ⟨hm, hq⟩ => ⟨hm.trans_none rfl fun _ ho => List.mem_append_left _ ho, hq⟩⟩

/-- A report that adds n to RTF and leaves LIF (R150). -/
def Report.weighs (r : Report) (n : Nat) : Prop := ∀ k : NodeControl, (r.apply k).rtf = satAdd k.rtf n ∧ (r.apply k).lif = k.lif

theorem Event.reportUnder_flight_nil (hm : m ≠ .offline) (hf : f.orig.flight = []) (hr : f.orig.resend = none)
    (hb : f.orig.backoff = none) : ∃ a, (f.reportUnder m r).orig = { f.orig with announce := a } := by
  rcases Event.reportUnder_either (e := f) (r := r) hm with ⟨h, -⟩ | ⟨-, -, h⟩
  · exact ⟨f.orig.announce, by rw [h]; rfl⟩
  · refine ⟨none, ?_⟩
    rw [h, Event.isolate_orig]
    show { f.orig with flight := [], resend := none, backoff := none, announce := none } = _
    rw [← hf, ← hr, ← hb]

theorem GaveUp.report (h : GaveUp 0 P e f) (hm : m ≠ .offline) (hw : r.weighs n) : GaveUp n P e (f.reportUnder m r) := by
  obtain ⟨a, ha⟩ := Event.reportUnder_flight_nil (r := r) hm h.flight h.resend h.backoff
  obtain ⟨hlif, hrtf, -⟩ := Event.reportUnder_counts (e := f) (r := r) hm
  obtain ⟨R, hR⟩ := f.reportUnder_marks m r
  obtain ⟨Q, hQ, hPQ⟩ := h.marks
  refine ⟨(Event.reportUnder_resetN ..).trans h.resetN, (Event.reportUnder_moments ..).trans h.moments,
    (Event.reportUnder_link ..).trans h.link, (Event.reportUnder_out ..).trans h.out,
    (Event.reportUnder_sources ..).trans h.sources, (Event.reportUnder_mem ..).trans h.mem,
    (Event.reportUnder_aq ..).trans h.aq, (Event.reportUnder_arb ..).trans h.arb, by rw [ha]; exact h.flight,
    by rw [ha]; exact h.resend, by rw [ha]; exact h.backoff, by rw [ha]; exact h.nextSeq,
    hlif.trans ((hw f.node).2.trans h.lif), ?_, h.failed.imp fun _ hq => hR.raised _ hq,
    ⟨_, hQ.trans hR, fun i hi => .inl (hPQ i hi)⟩⟩
  have h0 := h.rtf
  have hlt := e.node.rtf.isLt
  rw [hrtf, (hw f.node).1, satAdd_toNat, h0]
  omega

/-- An OFFLINE node without an announce record has nothing to offer after a give-up. -/
theorem GaveUp.settled (h : GaveUp n P e f) (ho : OutputSettled e.toState) (hm : f.node.mode = .offline)
    (ha : f.orig.announce = none) : OutputSettled f.toState := by
  intro hs hl
  rw [h.out] at hs ⊢
  rw [h.link] at hl
  exact ⟨(ho hs hl).1, by simp [originationOffer, announceOffer, ha, h.resend, hm, Mode.sends]⟩

/-- What stands at the end of the event of a give-up. -/
structure Abandoned (n : Nat) (P : WinIdx → Prop) (e : Event) (t : State) : Prop where
  link : t.link = e.link
  lif : t.node.lif = e.node.lif
  rtf : t.node.rtf.toNat = min 255 (e.node.rtf.toNat + n)
  sources : t.sources = e.sources
  mem : t.mem = e.mem
  aq : t.aq = e.aq
  flight : t.orig.flight = []
  resend : t.orig.resend = none
  backoff : t.orig.backoff = none
  nextSeq : t.orig.nextSeq = e.orig.nextSeq
  failed : Pending t 5
  marked : ∀ i : WinIdx, P i → e.windows[i].kind = .owned → t.windows[i].diverged = true ∧
    (e.windows[i].diverged = false → Pending t 12)

theorem GaveUp.abandoned (h : GaveUp n P e f) (hm : e.moments = []) (hr : e.resetN = true)
    (hq : e.arb.cycle = none → e.aq.entries = []) (hwin : f.finish.windows = f.windows) {a : Option AnnounceRecord}
    (horig : f.finish.orig = { f.orig with announce := a }) : Abandoned n P e f.finish := by
  obtain ⟨-, hlink, hsources, hnode, hmem, haq⟩ := Event.finish_beside (e := f) (h.moments.trans hm)
  have hpend {o : Occurrence} (ho : o ∈ f.raised) : Pending f.finish o.cause :=
    Event.pending_finish (h.resetN.trans hr) ho
  obtain ⟨q, hfail⟩ := h.failed
  obtain ⟨Q, hQ, hPQ⟩ := h.marks
  refine ⟨hlink.trans h.link, by rw [hnode]; exact h.lif, by rw [hnode]; exact h.rtf, hsources.trans h.sources,
    hmem.trans h.mem, (haq (by rw [h.arb, h.aq]; exact hq)).trans h.aq, by rw [horig]; exact h.flight,
    by rw [horig]; exact h.resend, by rw [horig]; exact h.backoff, by rw [horig]; exact h.nextSeq, hpend hfail,
    fun i hi hk => ⟨?_, fun hd => hpend (hQ.caused i (hPQ i hi) hk hd)⟩⟩
  rw [hwin]
  exact (hQ.diverged_iff i).2 (.inr ⟨hk, hPQ i hi⟩)

theorem GaveUp.abandoned_offline (h : GaveUp n P e f) (ho : OutputSettled e.toState) (hm : e.moments = [])
    (hr : e.resetN = true) (hq : e.arb.cycle = none → e.aq.entries = []) (hmode : f.node.mode = .offline)
    (ha : f.orig.announce = none) :
    Abandoned n P e f.finish ∧ f.finish.node = f.node ∧ f.finish.orig = f.orig ∧ f.finish.pq = f.pq := by
  have hend := Event.finish_ended (.inl (h.moments.trans hm)) (h.settled ho hmode ha)
  exact ⟨h.abandoned hm hr hq hend.windows (a := f.orig.announce) hend.orig, hend.node, hend.orig, hend.pq⟩

/-- The announce record of a rejoin, as an idle link leaves it or as a busy one does (R94). -/
theorem GaveUp.abandoned_joining (h : GaveUp n P e f) (ho : OutputSettled e.toState) (hm : e.moments = [])
    (hr : e.resetN = true) (hq : e.arb.cycle = none → e.aq.entries = []) (hmode : f.node.mode = .joining)
    {a : AnnounceRecord} (ha : f.orig.announce = some a) (hst : a.state = .awaitingSend) :
    Abandoned n P e f.finish ∧ f.finish.node = f.node ∧ f.finish.pq = f.pq ∧ ∃ b, f.finish.orig.announce = some b ∧
      b.startSeq = a.startSeq ∧ b.retry = a.retry ∧
      b.state = if e.out.sending.isSome = true ∨ e.link.outbound = .quiet then .awaitingSend else .sent := by
  have hfm := h.moments.trans hm
  obtain ⟨-, -, -, hnode, -⟩ := Event.finish_beside (e := f) hfm
  by_cases hb : e.out.sending.isSome = true ∨ e.link.outbound = .quiet
  · obtain ⟨h1, -, h3, h4⟩ := Event.finish_unsent hfm (by rw [h.out, h.link]; exact hb.imp_right fun h => by simp [h])
    exact ⟨h.abandoned hm hr hq h4 (a := f.orig.announce) h1, hnode, h3, a, by rw [h1, ha], rfl, rfl,
      by rw [if_pos hb, hst]⟩
  · obtain ⟨hidle, hrun⟩ := not_or.1 hb
    have hidle : e.out.sending = none := by simpa using hidle
    have hrun : e.link.outbound = .running := by
      cases hl : e.link.outbound with
      | quiet => exact absurd hl hrun
      | running => rfl
    obtain ⟨h1, -, h3, h4⟩ := Event.finish_announce hfm (by rw [h.out, hidle]) (by rw [h.link, hrun])
      (by rw [h.out]; exact (ho hidle hrun).1) (originationOffer_announce ha hmode hst)
    exact ⟨h.abandoned hm hr hq h4 h1, hnode, h3, _, congrArg Origination.announce h1, rfl, rfl,
      (if_neg hb).symm⟩

end After

theorem Event.goBack_of_limit (hf : e.orig.flight = h :: rest) (hlim : h.retry = e.node.params.retryLimit) :
    e.goBack objection = e.giveUp h.seq := by
  unfold Event.goBack
  rw [hf]
  exact if_pos hlim

/-- The windows of the In-Flight List. -/
abbrev inFlight (s : State) (i : WinIdx) : Prop := ∃ x ∈ s.orig.flight, x.window = i

theorem rejoins_node (e : Event) : (rejoins e).node = { e.node with mode := .joining } := rfl

theorem rejoins_announce (e : Event) : (rejoins e).orig.announce =
    some { startSeq := e.orig.nextSeq, retry := 0, state := .awaitingSend, departure := 0 } := rfl

theorem rejoins_pq (e : Event) : (rejoins e).pq = e.pq := rfl

theorem endsDrain_node (e : Event) : (endsDrain e).node = { e.node with mode := .offline } := by
  show { e.discardPq.node with mode := Mode.offline } = _
  rw [Event.discardPq_node]

theorem endsDrain_orig (e : Event) : (endsDrain e).orig = e.orig := Event.discardPq_orig e

theorem endsDrain_total (e : Event) : (endsDrain e).pq.total = 0 := e.discardPq_total

section Modes
variable {n : Nat} {t : State}

/-- The part of a give-up that is the same in both modes. -/
theorem Abandoned.givenUp {P : WinIdx → Prop} (h : Abandoned n P e t) (hP : ∀ i, inFlight e.toState i → P i)
    (hactive : e.node.mode = .active → e.node.rtf.toNat + n < 240 → t.node.mode = .joining ∧ t.pq = e.pq ∧
      ∃ r, t.orig.announce = some r ∧ r.startSeq = e.orig.nextSeq ∧ r.retry = 0 ∧
        r.state = (if e.out.sending.isSome = true ∨ e.link.outbound = .quiet then .awaitingSend else .sent))
    (hdraining : e.node.mode = .draining → t.node.mode = .offline ∧ t.pq.total = 0 ∧ Pending t 2 ∧
      t.orig.announce = none ∧
      ∀ p ∈ e.pq.entries, e.windows[p.window].kind = .owned → t.windows[p.window].diverged = true) :
    GivenUp n e.toState t ∧ t.node.lif = e.node.lif ∧ t.link = e.link :=
  ⟨⟨h.flight, h.resend, h.backoff, h.nextSeq, h.failed, h.rtf, h.sources, h.aq, h.mem,
    fun x hx => h.marked x.window (hP _ ⟨x, hx, rfl⟩), hactive, hdraining⟩, h.lif, h.link⟩

/-- An ACTIVE node joins anew, unless the report isolates it (R94, R154). -/
theorem Event.gives_up_active (hm : e.moments = []) (ho : OutputSettled e.toState) (hr : e.resetN = true)
    (hq : e.arb.cycle = none → e.aq.entries = []) (hlevel : LevelLaw e.toState) (hmode : e.node.mode = .active)
    (hw : r.weighs n) :
    let t := ((e.giveUp h.seq).reportUnder .active r).finish
    GivenUp n e.toState t ∧ t.node.lif = e.node.lif ∧ t.link = e.link := by
  have hrun : e.node.mode ≠ .offline := by rw [hmode]; exact fun h => nomatch h
  have hG : GaveUp n (inFlight e.toState) e ((e.giveUp h.seq).reportUnder .active r) := by
    rw [Event.giveUp_active hmode]
    exact (failed_gaveUp h.seq e).rejoins.report (fun h => nomatch h) hw
  rcases Event.reportUnder_either (e := e.giveUp h.seq) (m := .active) (r := r) (fun h => nomatch h) with
    ⟨hst, -⟩ | ⟨-, hiso, hst⟩
  · have hnode : (e.giveUp h.seq).node = { e.node with mode := .joining } := by
      rw [Event.giveUp_active hmode, rejoins_node, failed_node]
    have hann : (e.giveUp h.seq).orig.announce =
        some { startSeq := e.orig.nextSeq, retry := 0, state := .awaitingSend, departure := 0 } := by
      rw [Event.giveUp_active hmode, rejoins_announce, failed_orig]
    have hpq : (e.giveUp h.seq).pq = e.pq := by
      rw [Event.giveUp_active hmode, rejoins_pq, failed, Event.discardFlight_pq]
      rfl
    generalize (e.giveUp h.seq).reportUnder .active r = f at hG hst
    have hmode' : (r.counted (e.giveUp h.seq).node).mode = .joining := by
      rw [(r.counted_self _).2.1, hnode]
    obtain ⟨hab, hfn, hfq, b, hb, hseq, hretry, hstate⟩ := hG.abandoned_joining ho hm hr hq (by rw [hst]; exact hmode')
      (by rw [hst]; exact hann) rfl
    refine hab.givenUp (fun _ hi => hi) (fun _ _ => ⟨?_, ?_, b, hb, hseq, hretry, hstate⟩)
      fun hd => absurd (hmode.symm.trans hd) (by decide)
    · rw [hfn, hst]
      exact hmode'
    · rw [hfq, hst]
      exact hpq
  · rw [hst] at hG ⊢
    obtain ⟨hab, -, -, -⟩ := hG.abandoned_offline ho hm hr hq (by rw [Event.isolate_node]) (by rw [Event.isolate_orig])
    refine hab.givenUp (fun _ hi => hi) (fun _ hn => absurd hiso ?_) fun hd => absurd (hmode.symm.trans hd) (by decide)
    have hnode : (e.giveUp h.seq).node = { e.node with mode := .joining } := by
      rw [Event.giveUp_active hmode, rejoins_node, failed_node]
    rw [hnode]
    refine NodeControl.levelAfter_ne_isolated (by rw [Report.apply_level]; exact hlevel.unisolated hrun) ?_ ?_
    · rw [(hw _).2]
      exact (hlevel.counts hrun).1
    · rw [(hw _).1, satAdd_toNat]
      show min 255 (e.node.rtf.toNat + n) < 240
      omega

/-- A DRAINING node ends OFFLINE, isolated by the report or not (R94). -/
theorem Event.gives_up_draining (hm : e.moments = []) (ho : OutputSettled e.toState) (hr : e.resetN = true)
    (hq : e.arb.cycle = none → e.aq.entries = []) (hann : e.orig.announce = none) (hmode : e.node.mode = .draining)
    (hw : r.weighs n) :
    let t := ((e.giveUp h.seq).reportUnder .draining r).finish
    GivenUp n e.toState t ∧ t.node.lif = e.node.lif ∧ t.link = e.link := by
  have hg := Event.giveUp_draining hmode h.seq
  have hpq : (failed h.seq e).pq = e.pq := by
    rw [failed, Event.discardFlight_pq]
    rfl
  have hG : GaveUp n (fun i => inFlight e.toState i ∨ ∃ p ∈ e.pq.entries, p.window = i) e
      ((e.giveUp h.seq).reportUnder .draining r) := by
    have hd := (failed_gaveUp h.seq e).discardPq
    rw [hpq] at hd
    rw [hg]
    exact hd.drained.report (fun h => nomatch h) hw
  have hgnode : (e.giveUp h.seq).node.mode = .offline := by rw [hg, endsDrain_node]
  have hgann : (e.giveUp h.seq).orig.announce = none := by rw [hg, endsDrain_orig, failed_orig, hann]
  have hgpq : (e.giveUp h.seq).pq.total = 0 := by rw [hg, endsDrain_total]
  have hgdone : .drainDone ∈ (e.giveUp h.seq).raised := by rw [hg]; exact List.mem_append_right _ (.head _)
  obtain ⟨R, hR⟩ := (e.giveUp h.seq).reportUnder_marks .draining r
  have hdone := hR.raised _ hgdone
  have hoff : ((e.giveUp h.seq).reportUnder .draining r).node.mode = .offline ∧
      ((e.giveUp h.seq).reportUnder .draining r).orig.announce = none ∧
      ((e.giveUp h.seq).reportUnder .draining r).pq.total = 0 := by
    rcases Event.reportUnder_either (e := e.giveUp h.seq) (m := .draining) (r := r) (fun h => nomatch h) with
      ⟨hst, -⟩ | ⟨-, -, hst⟩
    · rw [hst]
      exact ⟨(r.counted_self _).2.1.trans hgnode, hgann, hgpq⟩
    · rw [hst, Event.isolate_node, Event.isolate_orig]
      exact ⟨rfl, rfl, Event.isolate_pq_total _⟩
  obtain ⟨hfmode, hfann, hfpq⟩ := hoff
  generalize (e.giveUp h.seq).reportUnder .draining r = f at hG hdone hfmode hfann hfpq
  obtain ⟨hab, hfn, hfo, hfq⟩ := hG.abandoned_offline ho hm hr hq hfmode hfann
  refine hab.givenUp (fun _ => .inl) (fun ha => absurd (hmode.symm.trans ha) (by decide)) fun _ =>
    ⟨by rw [hfn, hfmode], by rw [hfq, hfpq], Event.pending_finish (o := .drainDone) (hG.resetN.trans hr) hdone,
      by rw [hfo, hfann], fun p hp hk => (hab.marked p.window (.inr ⟨p, hp, rfl⟩) hk).1⟩

end Modes

/-- A give-up with its report (R93, R94, R152). -/
theorem Event.gives_up {n : Nat} (hm : e.moments = []) (ho : OutputSettled e.toState) (hr : e.resetN = true)
    (hq : e.arb.cycle = none → e.aq.entries = []) (hmode : ModeLaw e.toState) (hlevel : LevelLaw e.toState)
    (hf : e.orig.flight = h :: rest) (hlim : h.retry = e.node.params.retryLimit) (hw : r.weighs n) :
    GivenUp n e.toState (e.goBackReported objection r).finish ∧
      (e.goBackReported objection r).finish.node.lif = e.node.lif ∧ (e.goBackReported objection r).finish.link = e.link := by
  unfold Event.goBackReported
  rw [Event.goBack_of_limit hf hlim]
  rcases hmode.mode_of_flight (by rw [hf]; exact List.cons_ne_nil _ _) with ha | hd
  · rw [ha]
    exact Event.gives_up_active hm ho hr hq hlevel ha hw
  · rw [hd]
    exact Event.gives_up_draining hm ho hr hq (hmode.announce_none_of_flight hf) hd hw

theorem Report.weighs_timerExpiry : Report.timerExpiry.weighs 6 := fun _ => ⟨rfl, rfl⟩
theorem Report.weighs_outOfOrder : Report.outOfOrder.weighs 6 := fun _ => ⟨rfl, rfl⟩
theorem Report.weighs_objected : Report.objected.weighs 1 := fun _ => ⟨rfl, rfl⟩

end GiveUp

end Sys2Proof.Machine
end

section
/-! SUPPORT. The arrival of a well-formed frame up to its good-frame report (R102, R103), and the returns of own frames
(R85 to R89, R97). -/

namespace Sys2Proof.Machine

/-! ## The good-frame report (R103) -/

section Greeting
variable {s : State} {e : Event}

/-- An event in which a well-formed frame has arrived and been reported as good. -/
structure Greeted (s : State) (e : Event) : Prop where
  state : ∃ lif level, e.toState = (s.withLink s.linkAfterFrame).withNode { s.node with lif := lif, level := level }
  lif : LifLowered s e.toState
  level : s.node.mode ≠ .offline → (e.node.level = .normal ↔ ObjectsAfterGoodFrame s)
  raised : e.raised = if e.node.level = s.node.level then [] else [.levelChange]
  restored : e.node.level ≠ s.node.level → s.node.level = .degraded ∧ e.node.level = .normal
  law : LevelLaw e.toState

theorem goodFrame_level {n : NodeControl} (hl : n.level ≠ .isolated)
    (hn : n.level = .normal → n.lif.toNat < 96 ∧ n.rtf.toNat < 96)
    (hd : n.level = .degraded → n.lif.toNat < 240 ∧ n.rtf.toNat < 240) :
    (Report.goodFrame.apply n).levelAfter =
      if n.level = .normal ∨ (n.lif.toNat ≤ 64 ∧ n.rtf.toNat ≤ 63) then .normal else .degraded := by
  have hlif : (Report.goodFrame.apply n).lif.toNat = n.lif.toNat - 1 := satPred_toNat _
  have hrtf : (Report.goodFrame.apply n).rtf = n.rtf := rfl
  unfold NodeControl.levelAfter
  rw [Report.apply_level, hlif, hrtf]
  cases h : n.level with
  | isolated => exact absurd h hl
  | normal =>
    obtain ⟨h1, h2⟩ := hn h
    rw [if_neg (by omega), if_neg (by omega), if_neg (by simp), if_pos (.inl rfl)]
  | degraded =>
    obtain ⟨h1, h2⟩ := hd h
    rw [if_neg (by omega), if_neg (by simp)]
    simp only [true_and, reduceCtorEq, false_or]
    congr 1
    exact propext ⟨fun h => by omega, fun h => by omega⟩

/-- The event of an arrival after its good-frame report. -/
def greeting (s : State) : Event := (Event.begin (s.withLink s.linkAfterFrame)).report .goodFrame

/-- OFFLINE takes no report (R151). -/
theorem greeting_offline (hm : s.node.mode = .offline) : greeting s = Event.begin (s.withLink s.linkAfterFrame) := by
  show Event.reportUnder _ s.node.mode _ = _
  rw [hm, Event.reportUnder_offline]

theorem greeting_greeted (h : LevelLaw s) : Greeted s (greeting s) := by
  by_cases hm : s.node.mode = .offline
  · rw [greeting_offline hm]
    exact ⟨⟨s.node.lif, s.node.level, rfl⟩, (if_pos hm).symm, fun hn => absurd hm hn, (if_pos rfl).symm,
      fun hn => absurd rfl hn, h⟩
  · have hu := h.unisolated hm
    obtain ⟨hn, hd⟩ := h.2
    have hlevel := goodFrame_level hu hn hd
    have hne : (Report.goodFrame.apply s.node).levelAfter ≠ .isolated := by
      rw [hlevel]
      split <;> exact fun h => nomatch h
    obtain ⟨h1, h2⟩ := Event.reportUnder_kept (e := Event.begin (s.withLink s.linkAfterFrame)) (m := s.node.mode)
      (r := .goodFrame) hm (.inr hne)
    change (greeting s).toState = (s.withLink s.linkAfterFrame).withNode (Report.goodFrame.counted s.node) at h1
    change (greeting s).raised = _ at h2
    have hnode : (greeting s).node.level = (Report.goodFrame.apply s.node).levelAfter := by rw [h1]; rfl
    have hlif : (greeting s).node.lif.toNat = s.node.lif.toNat - 1 := by rw [h1]; exact satPred_toNat _
    have hrtf : (greeting s).node.rtf = s.node.rtf := by rw [h1]; rfl
    generalize greeting s = e at h1 h2 hnode hlif hrtf
    have hchange : e.node.level ≠ s.node.level → s.node.level = .degraded ∧ e.node.level = .normal := by
      rw [hnode, hlevel]
      cases hs : s.node.level with
      | isolated => exact absurd hs hu
      | normal => simp
      | degraded => split <;> simp
    refine ⟨⟨_, _, h1⟩, hlif.trans (if_neg hm).symm, fun _ => ?_, by rw [h2, hnode]; rfl, hchange, ?_⟩
    · rw [hnode, hlevel]
      by_cases hc : ObjectsAfterGoodFrame s
      · exact ⟨fun _ => hc, fun _ => if_pos hc⟩
      · rw [if_neg hc]
        exact ⟨fun h' => (nomatch h'), fun h' => absurd h' hc⟩
    · rw [hlevel] at hnode
      refine ⟨fun hi => ?_, fun hl => ?_, fun _ => ?_⟩
      · rw [hi] at hnode
        split at hnode <;> exact nomatch hnode
      · rw [hlif, hrtf]
        by_cases hc : ObjectsAfterGoodFrame s
        · rcases hc with hc | hc
          · have := hn hc
            omega
          · omega
        · rw [hl, if_neg hc] at hnode
          exact nomatch hnode
      · rw [hlif, hrtf]
        have := h.counts hm
        omega

/-! The node but for LIF and the level, and the other blocks but for the link, stand at the good-frame report. -/

section Stands
variable (hg : Greeted s e)
include hg

theorem Greeted.outputSettled (hs : Settled s) : OutputSettled e.toState := by
  obtain ⟨lif, level, hst⟩ := hg.state
  rw [hst]
  exact OutputSettled.congr (s := s) hs.2.1 rfl rfl (originationOffer_congr rfl rfl rfl)

theorem Greeted.modeLaw (h : ModeLaw s) : ModeLaw e.toState := by
  obtain ⟨lif, level, hst⟩ := hg.state
  rw [hst]
  exact h

theorem Greeted.flightLaw (h : FlightLaw s) : FlightLaw e.toState := by
  obtain ⟨lif, level, hst⟩ := hg.state
  rw [hst]
  exact h

theorem Greeted.fields : e.resetN = s.resetN ∧ e.host = s.host ∧ e.windows = s.windows ∧ e.pq = s.pq ∧ e.orig = s.orig ∧
    e.link = s.linkAfterFrame ∧ e.out = s.out ∧ e.sources = s.sources ∧ e.aq = s.aq ∧ e.arb = s.arb ∧ e.mem = s.mem ∧
    e.attn = s.attn ∧ e.mgmt = s.mgmt ∧ e.moments = s.moments := by
  obtain ⟨lif, level, hst⟩ := hg.state
  rw [hst]
  exact ⟨rfl, rfl, rfl, rfl, rfl, rfl, rfl, rfl, rfl, rfl, rfl, rfl, rfl, rfl⟩

theorem Greeted.node : e.node.nodeId = s.node.nodeId ∧ e.node.mode = s.node.mode ∧ e.node.rtf = s.node.rtf ∧
    e.node.params = s.node.params ∧ e.node.timebase = s.node.timebase ∧
    { e.node with lif := s.node.lif, level := s.node.level } = s.node := by
  obtain ⟨lif, level, hst⟩ := hg.state
  rw [hst]
  exact ⟨rfl, rfl, rfl, rfl, rfl, rfl⟩

end Stands

/-- The arrival of a well-formed frame (R102). -/
theorem exec_greeting {bytes : List Byte} {f : Frame} (hp : parseFrame bytes = some f) (ha : Arriving s bytes) :
    exec (.frameArrival bytes) s = .next ((greeting s).goodArrival f).finish := by
  refine (exec_frameArrival ha).trans ?_
  unfold Event.receive
  rw [hp]
  rfl

theorem exec_arrival {bytes : List Byte} {f : Frame} (hp : parseFrame bytes = some f) (ha : Arriving s bytes)
    (hl : LevelLaw s) : ∃ e, Greeted s e ∧ exec (.frameArrival bytes) s = .next (e.goodArrival f).finish :=
  ⟨greeting s, greeting_greeted hl, exec_greeting hp ha⟩

end Greeting

/-! ## Returns (R85, R104) -/

section Returns
variable {s : State} {e : Event} {f : Frame} {x h : IflEntry}

theorem Event.goodArrival_own (hs : f.source = e.node.nodeId) : e.goodArrival f = e.returned f := if_pos hs

theorem Event.returned_update (hb : f.body ≠ .announce) : e.returned f = e.updateReturned f := by
  unfold Event.returned
  split
  next => rfl
  next h => exact absurd h hb

theorem Event.returned_announce (hb : f.body = .announce) : e.returned f = e.announceReturned f := by
  unfold Event.returned
  rw [hb]

/-- The attempt of a frame is that of an entry or of the announce record (R84, R86). -/
theorem attempt_eq_iff {a : BitVec 2} {retry : Byte} : a = retry.extractLsb' 0 2 ↔ a.toNat = retry.toNat % 4 := by
  rw [← BitVec.toNat_inj]
  simp

/-- The position of an entry found by its sequence. -/
theorem FlightLaw.found (hl : FlightLaw s) (hx : x ∈ s.orig.flight) :
    ∃ i, flightPosition s.orig.flight x.seq = some i ∧ s.orig.flight[i]? = some x := by
  obtain ⟨i, hi, rfl⟩ := List.getElem_of_mem hx
  exact ⟨i, hl.position ⟨i, hi⟩, List.getElem?_eq_getElem hi⟩

theorem Event.updateReturned_of_entry (hl : FlightLaw e.toState) (hx : x ∈ e.orig.flight) (hq : f.seq = x.seq) :
    ∃ i, flightPosition e.orig.flight x.seq = some i ∧ e.orig.flight[i]? = some x ∧ e.updateReturned f =
      if f.attempt ≠ x.retry.extractLsb' 0 2 ∨ x.state = .awaitingResend then e.on countStale
      else if f.nak then e.goBackReported true .objected
      else if i = 0 then e.retire
      else e.goBackReported false .outOfOrder := by
  obtain ⟨i, hi, hxi⟩ := hl.found hx
  refine ⟨i, hi, hxi, ?_⟩
  unfold Event.updateReturned
  rw [hq, hi, Option.bind_some, hxi]
  rfl

/-- The report of a return that goes back, and its weight (R150). -/
def returnReport (nak : Bool) : Report := if nak = true then .objected else .outOfOrder

/-- A current return of a SENT entry that is objected to or is not the head's goes back (R88, R89). -/
theorem Event.updateReturned_goes_back (hl : FlightLaw e.toState) (hx : x ∈ e.orig.flight) (hst : x.state = .sent)
    (hq : f.seq = x.seq) (ha : f.attempt.toNat = x.retry.toNat % 4) (hh : e.orig.flight.head? = some h)
    (hn : f.nak = true ∨ x.seq ≠ h.seq) :
    e.updateReturned f = e.goBackReported f.nak (returnReport f.nak) := by
  obtain ⟨i, -, hi, he⟩ := Event.updateReturned_of_entry hl hx hq
  rw [he, if_neg (by rw [hst, attempt_eq_iff.2 ha]; simp)]
  cases hnak : f.nak with
  | true => rfl
  | false =>
    have hi0 : i ≠ 0 := by
      rintro rfl
      rw [← List.head?_eq_getElem?, hh] at hi
      cases hi
      exact hn.elim (fun h => by rw [hnak] at h; cases h) fun h => h rfl
    rw [if_neg (by decide), if_neg hi0]
    rfl

theorem returnReport_weighs (nak : Bool) : (returnReport nak).weighs (if nak = true then 1 else 6) := by
  cases nak
  · exact Report.weighs_outOfOrder
  · exact Report.weighs_objected

theorem Greeted.givenUp {n : Nat} {t : State} (hg : Greeted s e) (h : GivenUp n e.toState t) : GivenUp n s t := by
  obtain ⟨lif, level, hst⟩ := hg.state
  rw [hst] at h
  exact h

end Returns

/-- Settles O35: the same give-up after the return timer and after a return that goes back. -/
theorem giveUpAbandonsTheList : Obligations.GiveUpAbandonsTheList := by
  intro h s hs _ hmode hlevel hflight hhead hlim
  have hf := flight_cons hhead
  refine ⟨fun hr hst ht => ⟨_, exec_returnTimer hf hst ht, ?_⟩, ?_⟩
  · exact Event.gives_up (e := Event.begin s) hs.1 hs.2.1 hr (fun hc => (hs.2.2 hc).2) hmode hlevel hf hlim
      Report.weighs_timerExpiry
  · intro bytes f x hp ha hsrc hb hx hst hq hatt hn
    obtain ⟨e, hg, hexec⟩ := exec_arrival hp ha hlevel
    obtain ⟨hresetN, -, -, -, horig, hlink, -, -, haq, harb, -, -, -, hmoments⟩ := hg.fields
    obtain ⟨hid, -, -, hparams, -, -⟩ := hg.node
    refine ⟨_, hexec, ?_⟩
    rw [Event.goodArrival_own (hsrc.trans hid.symm), Event.returned_update hb,
      Event.updateReturned_goes_back (hg.flightLaw hflight) (by rw [horig]; exact hx) hst hq hatt
        (by rw [horig]; exact hhead) hn]
    obtain ⟨hgiven, hlif, hl⟩ := Event.gives_up (e := e) (objection := f.nak) (hmoments.trans hs.1) (hg.outputSettled hs)
      (hresetN.trans ha.1) (by rw [harb, haq]; exact fun hc => (hs.2.2 hc).2) (hg.modeLaw hmode) hg.law
      (by rw [horig]; exact hf) (by rw [hparams]; exact hlim) (returnReport_weighs f.nak)
    exact ⟨hg.givenUp hgiven, (congrArg _ hlif).trans hg.lif, hl.trans hlink⟩

/-- Settles O30: a return that goes back, by its report. -/
theorem objectedAndOutOfOrderReturnsGoBack : Obligations.ObjectedAndOutOfOrderReturnsGoBack := by
  intro bytes f x h s hp hs hmode hlevel hflight ha hsrc hb hx hst hq hatt hhead hn hlim hrtf
  have hf := flight_cons hhead
  obtain ⟨e, hg, hexec⟩ := exec_arrival hp ha hlevel
  obtain ⟨hresetN, -, hwin, hpq, horig, hlink, hout, hsources, haq, harb, hmem, -, -, hmoments⟩ := hg.fields
  obtain ⟨hid, hm, hertf, hparams, htime, -⟩ := hg.node
  have hrun : e.node.mode ≠ .offline := by rw [hm]; exact hmode.running_of_flight hf
  refine ⟨_, hexec, ?_⟩
  rw [Event.goodArrival_own (hsrc.trans hid.symm), Event.returned_update hb,
    Event.updateReturned_goes_back (hg.flightLaw hflight) (by rw [horig]; exact hx) hst hq hatt
      (by rw [horig]; exact hhead) hn]
  have hback := Event.goes_back (e := e) (objection := f.nak) (r := returnReport f.nak) (hmoments.trans hs.1)
    (hg.outputSettled hs) (by rw [harb, haq]; exact fun hc => (hs.2.2 hc).2)
    (by rw [horig]; exact hmode.announce_none_of_flight hf) hrun (by rw [horig]; exact hf) (by rw [hparams]; exact hlim)
    (hg.law.not_isolating hrun (by cases f.nak; exact .inr (.inl rfl); exact .inr (.inr rfl)) (by rw [hertf]; exact hrtf))
  generalize (e.goBackReported f.nak (returnReport f.nak)).finish = t at hback
  have hcount := returnReport_weighs f.nak e.node
  have hobj : (f.nak = true ∧ s.node.params.nakBackoff ≠ 0) ↔ backsOff f.nak e.node := by rw [backsOff, hparams]
  refine ⟨?_, ?_, ?_, hback.sources.trans hsources, hback.aq.trans haq, hback.pq.trans hpq, hback.mem.trans hmem,
    hback.windows.trans hwin, hback.retry.trans (by rw [horig]), hback.seq.trans (by rw [horig]), fun hw => ?_⟩
  · show t.node.lif.toNat = _
    rw [hback.node]
    exact (congrArg _ hcount.2).trans hg.lif
  · rw [hback.node, ← hertf]
    refine (congrArg BitVec.toNat hcount.1).trans ?_
    rw [satAdd_toNat, hertf]
    split <;> omega
  · rw [hback.node, ← hm]
    exact ((returnReport f.nak).counted_self e.node).2.1
  · obtain ⟨h1, h2⟩ := hback.waits (by rwa [← hobj, hout])
    rw [h1, goBackFlight_orig, horig, hhead, h2, hout, htime]
    refine ⟨?_, rfl⟩
    simp only [hobj]
    rfl

/-! ## Returns that change no queue (R85, R86, R97) -/

section Stale
variable {s : State} {e g : Event} {f : Frame}

theorem satSucc16_eq (b : BitVec 16) : satSucc16 b = if b = 65535 then 65535 else b + 1 := by
  unfold satSucc16
  split
  next h => subst h; rfl
  next h => exact (if_neg h).symm

/-- What a return leaves that neither retires an entry nor goes back. -/
theorem Greeted.returns (hg : Greeted s e) (hs : Settled s) (hfixed : ∃ o, g.toState = e.toState.withOrig o)
    (hoff : originationOffer g.toState = originationOffer e.toState) :
    LifLowered s g.finish ∧ g.finish.node.rtf = s.node.rtf ∧ g.finish.sources = s.sources ∧ g.finish.aq = s.aq ∧
      g.finish.out = s.out ∧ g.finish.link = s.linkAfterFrame ∧ g.finish.pq = s.pq ∧ g.finish.windows = s.windows ∧
      g.finish.mem = s.mem ∧ g.finish.node.mode = s.node.mode ∧ g.finish.orig = g.orig := by
  obtain ⟨o, hst⟩ := hfixed
  obtain ⟨-, -, hwin, hpq, -, hlink, hout, hsources, haq, harb, hmem, -, -, hmoments⟩ := hg.fields
  obtain ⟨-, hm, hertf, -⟩ := hg.node
  have hset : OutputSettled g.toState :=
    (hg.outputSettled hs).congr (by rw [hst]; rfl) (by rw [hst]; rfl) hoff
  have hend := Event.finish_ended (e := g) (.inl (by rw [hst]; exact hmoments.trans hs.1)) hset
  refine ⟨?_, ?_, hend.sources.trans (by rw [hst]; exact hsources), ?_, hend.out.trans (by rw [hst]; exact hout),
    hend.link.trans (by rw [hst]; exact hlink), hend.pq.trans (by rw [hst]; exact hpq),
    hend.windows.trans (by rw [hst]; exact hwin), hend.mem.trans (by rw [hst]; exact hmem), ?_, hend.orig⟩
  · rw [LifLowered, hend.node, hst]
    exact hg.lif
  · rw [hend.node, hst]
    exact hertf
  · rw [hend.aq_eq (by rw [hst]; show e.arb.cycle = none → e.aq.entries = []; rw [harb, haq]; exact fun hc => (hs.2.2 hc).2), hst]
    exact haq
  · rw [hend.node, hst]
    exact hm

theorem originationOffer_countStale (s : State) : originationOffer (countStale s) = originationOffer s := rfl

theorem Greeted.stale (hg : Greeted s e) (hs : Settled s) (hr : e.returned f = e.on countStale) (t : State)
    (ht : t = (e.returned f).finish) :
    LifLowered s t ∧ t.node.rtf = s.node.rtf ∧ t.sources = s.sources ∧ t.aq = s.aq ∧
      t.out = s.out ∧ t.link = s.linkAfterFrame ∧ t.pq = s.pq ∧ t.windows = s.windows ∧
      t.mem = s.mem ∧ t.node.mode = s.node.mode ∧
      t.orig = { s.orig with
        staleReturns := if s.orig.staleReturns = 65535 then 65535 else s.orig.staleReturns + 1 } := by
  obtain ⟨-, -, -, -, horig, -⟩ := hg.fields
  obtain ⟨h1, h2, h3, h4, h5, h6, h7, h8, h9, h10, h11⟩ :=
    hg.returns hs (g := e.on countStale) ⟨_, rfl⟩ (originationOffer_countStale _)
  rw [ht, hr]
  refine ⟨h1, h2, h3, h4, h5, h6, h7, h8, h9, h10, h11.trans ?_⟩
  show { e.orig with staleReturns := satSucc16 e.orig.staleReturns } = _
  rw [horig, satSucc16_eq]

/-- No entry carries the sequence of the frame (R85). -/
theorem Event.updateReturned_unmatched (hl : FlightLaw e.toState) (hn : ∀ x ∈ e.orig.flight, x.seq ≠ f.seq) :
    e.updateReturned f = e.raise (.unmatchedReturn f.seq) := by
  have hpos : flightPosition e.orig.flight f.seq = none := by
    obtain ⟨done, todo, hsplit⟩ := (flightLaw_iff _).1 hl
    cases h : flightPosition e.orig.flight f.seq with
    | none => rfl
    | some i =>
      obtain ⟨hi, hq⟩ := (flightPosition_of_numbered hsplit.numbered hsplit.room i).1 h
      exact absurd hq (hn _ (List.getElem_mem hi))
  unfold Event.updateReturned
  rw [hpos]
  rfl

theorem completedBy_iff {r : AnnounceRecord} : r.completedBy f = true ↔
    r.state = .sent ∧ f.seq = r.startSeq ∧ f.attempt.toNat = r.retry.toNat % 4 := by
  rw [AnnounceRecord.completedBy, ← attempt_eq_iff]
  simp [and_assoc]

theorem Event.announceReturned_stale (hn : ∀ r ∈ e.orig.announce, ¬r.completedBy f = true) :
    e.announceReturned f = e.on countStale := by
  unfold Event.announceReturned
  cases h : e.orig.announce with
  | none => rfl
  | some r => exact if_neg (hn r h)

theorem Event.announceReturned_done {r : AnnounceRecord} (hr : e.orig.announce = some r) (hc : r.completedBy f = true) :
    e.announceReturned f =
      (e.on fun s => setMode (joinMode s.node.mode) (abandonAnnounce s)).raise (.joinDone r.startSeq) := by
  unfold Event.announceReturned
  rw [hr]
  exact if_pos hc

end Stale

/-- Settles O28: the unmatched return and the three kinds of stale ones. -/
theorem unmatchedAndStaleReturns : Obligations.UnmatchedAndStaleReturns := by
  intro bytes f s hp hs hlevel hflight ha hsrc kept staleCount
  obtain ⟨e, hg, hexec⟩ := exec_arrival hp ha hlevel
  obtain ⟨hresetN, -, -, -, horig, -⟩ := hg.fields
  obtain ⟨hid, -⟩ := hg.node
  rw [Event.goodArrival_own (hsrc.trans hid.symm)] at hexec
  refine ⟨fun hb hnone => ⟨_, hexec, ?_⟩, fun hb hx => ⟨_, hexec, ?_⟩, fun hb hr => ⟨_, hexec, ?_⟩⟩
  · have hr : e.returned f = e.raise (.unmatchedReturn f.seq) := by
      rw [Event.returned_update hb]
      exact Event.updateReturned_unmatched (hg.flightLaw hflight) (by rw [horig]; exact hnone)
    rw [hr]
    obtain ⟨h1, h2, h3, h4, h5, h6, h7, h8, h9, h10, h11⟩ :=
      hg.returns hs (g := e.raise (.unmatchedReturn f.seq)) ⟨e.orig, rfl⟩ rfl
    exact ⟨⟨h1, h2, h3, h4, h5, h6, h7, h8, h9, h10⟩, h11.trans horig,
      Event.pending_finish (e := e.raise (.unmatchedReturn f.seq)) (o := .unmatchedReturn f.seq) (hresetN.trans ha.1) (List.mem_append_right _ (.head _))⟩
  · obtain ⟨x, hx, hq, hstale⟩ := hx
    have hr : e.returned f = e.on countStale := by
      rw [Event.returned_update hb]
      obtain ⟨i, -, -, he⟩ := Event.updateReturned_of_entry (hg.flightLaw hflight) (by rw [horig]; exact hx) hq.symm
      rw [he, if_pos (by rwa [Ne, attempt_eq_iff])]
    obtain ⟨h1, h2, h3, h4, h5, h6, h7, h8, h9, h10, h11⟩ := hg.stale hs hr _ rfl
    exact ⟨⟨h1, h2, h3, h4, h5, h6, h7, h8, h9, h10⟩, h11⟩
  · have hst : e.returned f = e.on countStale := by
      rw [Event.returned_announce hb]
      exact Event.announceReturned_stale (by rw [horig]; exact fun r h => mt completedBy_iff.1 (hr r h))
    obtain ⟨h1, h2, h3, h4, h5, h6, h7, h8, h9, h10, h11⟩ := hg.stale hs hst _ rfl
    exact ⟨⟨h1, h2, h3, h4, h5, h6, h7, h8, h9, h10⟩, h11⟩

/-! ## Offers after a return -/

section Offers
variable {e : Event}

theorem announceOffer_of_offer {s : State} {r : AnnounceRecord} (h : originationOffer s = some (.announce r)) :
    announceOffer s = some r := by
  cases ha : announceOffer s with
  | some r' =>
    rw [originationOffer, ha] at h
    cases h
    rfl
  | none =>
    have hmap {α : Type} {o : Option α} {g : α → Offer} (hg : ∀ x, g x ≠ .announce r) : o.map g ≠ some (.announce r) := by
      cases o with
      | none => exact fun h => nomatch h
      | some x => exact fun h => hg x (Option.some.inj h)
    simp only [originationOffer, ha] at h
    split at h
    · split at h
      · exact absurd h (hmap fun _ h => nomatch h)
      · cases h
    · split at h
      · exact absurd h (hmap fun _ h => nomatch h)
      · cases h

theorem announceOffer_none_of_record {s : State} (ha : s.orig.announce = none) : announceOffer s = none := by
  simp [announceOffer, ha]

/-- Without an announce record no choice makes one. -/
theorem Event.finish_announce_none (hm : e.moments = []) (ha : e.orig.announce = none) :
    e.finish.orig.announce = none := by
  rw [Event.finish_eq hm, arbitrate_orig]
  have hc : (Event.begin e.commit).orig.announce = none := (congrArg _ e.commit_orig).trans ha
  generalize Event.begin e.commit = c at hc
  rcases c.chooseOutput_either with ⟨o, h⟩ | ⟨o, ho, h⟩
  · rw [h]
    exact hc
  · rw [h]
    cases o with
    | announce r => exact nomatch (announceOffer_of_offer ho).symm.trans (announceOffer_none_of_record hc)
    | resend f =>
      show (match flightPosition c.orig.flight f.seq with | some i => c.on (resendAt i f) | none => c).orig.announce = none
      cases flightPosition c.orig.flight f.seq <;> exact hc
    | fresh p => exact (congrArg Origination.announce (Event.roomCheck_orig _)).trans hc

/-- Without an announce record and with no resend due, a choice only adds to the In-Flight List. -/
theorem Event.finish_flight (hm : e.moments = []) (ha : e.orig.announce = none) (hr : e.orig.resend = none) :
    ∃ l, e.finish.orig.flight = e.orig.flight ++ l := by
  rw [Event.finish_eq hm, arbitrate_orig]
  have hc : (Event.begin e.commit).orig = e.orig := e.commit_orig
  generalize Event.begin e.commit = c at hc
  rw [← hc] at ha hr ⊢
  rcases c.chooseOutput_either with ⟨o, h⟩ | ⟨o, ho, h⟩
  · rw [h]
    exact ⟨[], (List.append_nil _).symm⟩
  · rw [h]
    cases o with
    | announce r => exact nomatch (announceOffer_of_offer ho).symm.trans (announceOffer_none_of_record ha)
    | resend f =>
      simp only [originationOffer, announceOffer_none_of_record ha, hr] at ho
      split at ho
      · next h => cases h
      · split at ho
        · cases hoff : c.pq.offer <;> rw [hoff] at ho <;> cases ho
        · cases ho
    | fresh p => exact ⟨_, congrArg Origination.flight (Event.roomCheck_orig _)⟩

end Offers

/-- Settles O31: the join completes, and an idle link may send the first entry at once. -/
theorem joinCompletes : Obligations.JoinCompletes := by
  intro bytes f r s hp hs hmode hlevel ha hsrc hb hr hst hq hatt
  obtain ⟨e, hg, hexec⟩ := exec_arrival hp ha hlevel
  obtain ⟨hresetN, -, hwin, hpq, horig, hlink, hout, hsources, haq, harb, hmem, -, -, hmoments⟩ := hg.fields
  obtain ⟨hid, hm, hertf, -⟩ := hg.node
  obtain ⟨g, hgdef⟩ : ∃ g, g =
      (e.on fun s => setMode (joinMode s.node.mode) (abandonAnnounce s)).raise (.joinDone r.startSeq) := ⟨_, rfl⟩
  rw [Event.goodArrival_own (hsrc.trans hid.symm), Event.returned_announce hb,
    Event.announceReturned_done (by rw [horig]; exact hr) (completedBy_iff.2 ⟨hst, hq, hatt⟩), ← hgdef] at hexec
  have hgm : g.moments = [] := by rw [hgdef]; exact hmoments.trans hs.1
  have hann : g.orig.announce = none := by rw [hgdef]; rfl
  have hactive : g.node = { e.node with mode := .active } := by
    rw [hgdef]
    show { e.node with mode := joinMode e.node.mode } = _
    rw [hm, hmode.mode_of_announce hr]
    rfl
  have hdone : .joinDone r.startSeq ∈ g.raised := by rw [hgdef]; exact List.mem_append_right _ (.head _)
  obtain ⟨-, -, hfsources, hnode, hfmem, hfaq⟩ := Event.finish_beside hgm
  refine ⟨_, hexec, by rw [hnode, hactive], Event.finish_announce_none hgm hann,
    Event.pending_finish (by rw [hgdef]; exact hresetN.trans ha.1) hdone, by rw [hnode, hactive]; exact hertf, ?_,
    hfsources.trans (by rw [hgdef]; exact hsources), ?_, hfmem.trans (by rw [hgdef]; exact hmem), fun hbusy => ?_⟩
  · rw [LifLowered, hnode, hactive]
    exact hg.lif
  · refine (hfaq ?_).trans (by rw [hgdef]; exact haq)
    rw [hgdef]
    show e.arb.cycle = none → e.aq.entries = []
    rw [harb, haq]
    exact fun hc => (hs.2.2 hc).2
  · obtain ⟨h1, h2, h3, h4⟩ := Event.finish_unsent hgm (.inl (by
      rw [hgdef]
      show e.out.sending.isSome = true
      rw [hout]
      exact hbusy))
    rw [h1, h2, h3, h4, hgdef]
    refine ⟨?_, hpq, hout, hwin⟩
    show { e.orig with announce := none } = _
    rw [horig]

/-! ## The clean return (R87) -/

section Retire
variable {s : State} {e : Event} {f : Frame} {h : IflEntry} {rest : List IflEntry}

theorem Event.updateReturned_clean (hl : FlightLaw e.toState) (hf : e.orig.flight = h :: rest) (hst : h.state = .sent)
    (hq : f.seq = h.seq) (ha : f.attempt.toNat = h.retry.toNat % 4) (hn : f.nak = false) :
    e.updateReturned f = e.retire := by
  obtain ⟨i, hi, -, he⟩ := Event.updateReturned_of_entry hl (by rw [hf]; exact .head _) hq
  rw [hf, flightPosition_head] at hi
  cases hi
  rw [he, if_neg (by rw [hst, attempt_eq_iff.2 ha]; simp), hn, if_neg (by decide), if_pos rfl]

/-- An idle link with nothing to choose has no resend due behind a SENT head (R92). -/
theorem Settled.resend_none (hs : Settled s) (hl : FlightLaw s) (ha : s.orig.announce = none)
    (hf : s.orig.flight = h :: rest) (hst : h.state = .sent) (hidle : s.out.sending = none)
    (hrun : s.link.outbound = .running) : s.orig.resend = none := by
  obtain ⟨done, todo, hsplit⟩ := (flightLaw_iff s).1 hl
  have hback : s.orig.backoff = none := by
    by_contra hb
    obtain ⟨-, rfl⟩ := hsplit.backoff (Option.isSome_iff_ne_none.2 hb)
    have htodo : todo = h :: rest := hsplit.flight.symm.trans hf
    have := hsplit.awaiting h (by rw [htodo]; exact .head _)
    rw [hst] at this
    cases this
  have hoff := (hs.2.1 hidle hrun).2
  cases hr : s.orig.resend with
  | none => rfl
  | some q =>
    obtain ⟨x, l, rfl, -⟩ := hsplit.todo_of_resend hr
    rw [originationOffer_resend ha (by rw [hr]; rfl) hback hsplit.resendEntry_eq] at hoff
    cases hoff

theorem Event.retire_state (hm : e.node.mode ≠ .offline) (hl : LevelLaw e.toState) (hf : e.orig.flight = h :: rest) :
    ((e.on fun s => s.withOrig { s.orig with flight := s.orig.flight.tail }).report .cleanRetirement).toState =
      (e.toState.withOrig { e.orig with flight := rest }).withNode (Report.cleanRetirement.counted e.node) := by
  have hk : (Report.cleanRetirement.apply e.node).levelAfter ≠ .isolated := by
    refine NodeControl.levelAfter_ne_isolated (by rw [Report.apply_level]; exact hl.unisolated hm) (hl.counts hm).1 ?_
    show (satPred e.node.rtf).toNat < 240
    rw [satPred_toNat]
    have := (hl.counts hm).2
    omega
  refine (Event.reportUnder_kept (e := e.on fun s => s.withOrig { s.orig with flight := s.orig.flight.tail })
    (m := e.node.mode) hm (.inr hk)).1.trans ?_
  show (e.toState.withOrig { e.orig with flight := e.orig.flight.tail }).withNode (Report.cleanRetirement.counted e.node) = _
  rw [hf]
  rfl

end Retire

/-- Settles O29: the head leaves the list, and the drain ends when that was the last entry. -/
theorem cleanReturnRetiresTheHead : Obligations.CleanReturnRetiresTheHead := by
  intro bytes f h rest s hp hs hmode hlevel hflight ha hsrc hb hf hst hq hatt hnak
  obtain ⟨e, hg, hexec⟩ := exec_arrival hp ha hlevel
  obtain ⟨hresetN, -, hwin, hpq, horig, hlink, hout, hsources, haq, harb, hmem, -, -, hmoments⟩ := hg.fields
  obtain ⟨hid, hm, hertf, -⟩ := hg.node
  have hef : e.orig.flight = h :: rest := by rw [horig, hf]
  rw [Event.goodArrival_own (hsrc.trans hid.symm), Event.returned_update hb,
    Event.updateReturned_clean (hg.flightLaw hflight) hef hst hq hatt hnak, Event.retire] at hexec
  have hann := hmode.announce_none_of_flight hf
  have hstate := Event.retire_state (by rw [hm]; exact hmode.running_of_flight hf) hg.law hef
  generalize (e.on fun s => s.withOrig { s.orig with flight := s.orig.flight.tail }).report .cleanRetirement = g
    at hexec hstate
  have hgorig : g.orig = { s.orig with flight := rest } := by
    rw [hstate, ← horig]
    rfl
  have hgpq : g.pq = s.pq := by rw [hstate]; exact hpq
  have hgout : g.out = s.out := by rw [hstate]; exact hout
  have hglink : g.link.outbound = s.link.outbound := by
    rw [hstate]
    exact (congrArg LinkInterface.outbound hlink).trans rfl
  have hgmode : g.node.mode = s.node.mode := by rw [hstate]; exact hm
  have hdm : g.drainCheck.moments = [] := by rw [Event.drainCheck_moments, hstate]; exact hmoments.trans hs.1
  have hcount : g.drainCheck.node.lif = e.node.lif ∧ g.drainCheck.node.rtf = satPred e.node.rtf := by
    have hgn : g.node.lif = e.node.lif ∧ g.node.rtf = satPred e.node.rtf := by rw [hstate]; exact ⟨rfl, rfl⟩
    rcases g.drainCheck_cases with ⟨-, -, -, hd⟩ | ⟨-, hd⟩ <;> rw [hd] <;> exact hgn
  obtain ⟨-, -, hfsources, hnode, hfmem, hfaq⟩ := Event.finish_beside hdm
  refine ⟨_, hexec, ?_, ?_, ?_, ?_, ?_, ?_, fun hbusy => ?_, fun hd hp0 hr0 => ?_, fun hn => ?_⟩
  · rw [LifLowered, hnode, hcount.1]
    exact hg.lif
  · rw [hnode, hcount.2, satPred_toNat, hertf]
  · rw [hfsources, Event.drainCheck_sources, hstate]
    exact hsources
  · rw [hfaq ?_, Event.drainCheck_aq, hstate]
    · exact haq
    · rw [Event.drainCheck_arb, Event.drainCheck_aq, hstate]
      show e.arb.cycle = none → e.aq.entries = []
      rw [harb, haq]
      exact fun hc => (hs.2.2 hc).2
  · rw [hfmem, Event.drainCheck_mem, hstate]
    exact hmem
  · rw [List.isPrefixOf_iff_prefix]
    by_cases hi : s.out.sending.isSome = true ∨ s.link.outbound ≠ .running
    · obtain ⟨h1, -⟩ := Event.finish_unsent hdm (by rwa [Event.drainCheck_out, Event.drainCheck_link, hgout, hglink])
      rw [h1, Event.drainCheck_orig, hgorig]
    · simp only [not_or, Option.not_isSome_iff_eq_none, not_not] at hi
      obtain ⟨l, hl⟩ := Event.finish_flight hdm (by rw [Event.drainCheck_orig, hgorig]; exact hann)
        (by rw [Event.drainCheck_orig, hgorig]; exact hs.resend_none hflight hann hf hst hi.1 hi.2)
      rw [hl, Event.drainCheck_orig, hgorig]
      exact List.prefix_append _ _
  · obtain ⟨h1, h2, h3, h4⟩ := Event.finish_unsent hdm (.inl (by rw [Event.drainCheck_out, hgout]; exact hbusy))
    rw [h1, h2, h3, h4, Event.drainCheck_out, Event.drainCheck_pq, Event.drainCheck_orig, Event.drainCheck_windows]
    exact ⟨hgout, hgpq, hgorig, by rw [hstate]; exact hwin⟩
  · have hd := Event.drainCheck_of_drained (e := g) (hgmode.trans hd) (by rw [hgpq, hp0]) (by rw [hgorig, hr0])
    refine ⟨by rw [hnode, hd]; rfl, Event.pending_finish (o := .drainDone) ?_ ?_⟩
    · rw [Event.drainCheck_resetN, hstate]
      exact hresetN.trans ha.1
    · rw [hd]
      exact List.mem_append_right _ (.head _)
  · rw [hnode, Event.drainCheck_of_not (by rwa [hgmode, hgpq, hgorig]), hgmode]

end Sys2Proof.Machine
end

section
/-! SUPPORT. The forwarding of a frame (R70 to R72, R120) and the end of its event, and the statements about orphans,
OFFLINE forwarding and announcements. -/

namespace Sys2Proof.Machine

/-! ## The forwarding -/

section Forwarding
variable {s : State} {e : Event} {f : Frame} {nak : Bool}

theorem appendIncident_withOut (s : State) (o : Occurrence) (a : OutputArbiter) :
    appendIncident (s.withOut a) o = (appendIncident s o).withOut a := by
  unfold appendIncident
  by_cases hl : s.attn.queue.length < Config.incidentCapacity <;> simp only [State.withOut_attn, hl] <;> rfl

theorem Event.commit_withOut (e : Event) (a : OutputArbiter) :
    (e.on fun s => s.withOut a).commit = e.commit.withOut a := by
  have fold (l : List Occurrence) (s : State) :
      l.foldl appendIncident (s.withOut a) = (l.foldl appendIncident s).withOut a := by
    induction l generalizing s with
    | nil => rfl
    | cons o os ih => rw [List.foldl_cons, appendIncident_withOut, ih, List.foldl_cons]
  unfold Event.commit
  cases hr : e.resetN <;> simp [hr, fold]

/-- The frame as it goes on (R120). -/
def passedOn (f : Frame) (nak : Bool) : Frame := { f with hops := f.hops + 1, nak := nak }

/-- The event of a forwarding with the Output Arbiter as the choice leaves it. -/
def forwardedEnd (e : Event) (f : Frame) (nak : Bool) : Event :=
  (e.forward f nak).on fun u => u.withOut (e.toState.outAfterForward (passedOn f nak))

theorem Event.forward_full (h : 4 ≤ e.out.fifo.length) :
    e.forward f nak = (e.raise (.transitDrop f.source f.seq)).report .transitDrop := if_pos h

theorem Event.forward_room (h : e.out.fifo.length < 4) :
    e.forward f nak = e.on fun s => s.withOut { e.out with fifo := e.out.fifo ++ [passedOn f nak] } :=
  if_neg (Nat.not_le.2 h)

theorem OutboundState.running_of_not_quiet {l : OutboundState} (h : l ≠ .quiet) : l = .running := by
  cases l with
  | quiet => exact absurd rfl h
  | running => rfl

/-- The Output Arbiter's own items do not enter the offer. -/
theorem originationOffer_withOut (s : State) (a : OutputArbiter) : originationOffer (s.withOut a) = originationOffer s :=
  originationOffer_congr rfl rfl rfl

/-- A frame that joins an empty FIFO beside an idle link is sent at once; in every other case the choice has nothing new
(R71 to R73). -/
theorem Event.forward_ended (hm : e.moments = []) (ho : OutputSettled e.toState) :
    Ended (forwardedEnd e f nak) (e.forward f nak).finish := by
  by_cases hfull : 4 ≤ e.out.fifo.length
  · have hblocked : e.out.sending.isSome = true ∨ e.link.outbound = .quiet := by
      by_contra hb
      obtain ⟨hidle, hrun⟩ := not_or.1 hb
      have := (ho (by simpa using hidle) (OutboundState.running_of_not_quiet hrun)).1
      rw [this] at hfull
      exact absurd hfull (by decide)
    have hout : (e.forward f nak).out = e.out := by
      rw [Event.forward_full hfull, Event.report_out]
      rfl
    have hself : forwardedEnd e f nak = e.forward f nak := by
      rw [forwardedEnd, State.outAfterForward, if_pos hblocked, if_neg (Nat.not_lt.2 hfull), ← hout]
      rfl
    rw [hself]
    refine Event.finish_ended (.inl ?_) ?_
    · rw [Event.forward_full hfull, Event.report_moments]
      exact hm
    · rw [Event.forward_full hfull]
      exact OutputSettled.reportUnder (e := e.raise (.transitDrop f.source f.seq)) ho _ _
  · have hroom := Nat.not_le.1 hfull
    have hg := Event.forward_room (f := f) (nak := nak) hroom
    by_cases hb : e.out.sending.isSome = true ∨ e.link.outbound = .quiet
    · have hself : forwardedEnd e f nak = e.forward f nak := by
        rw [forwardedEnd, State.outAfterForward, if_pos hb, if_pos hroom, hg]
        rfl
      rw [hself]
      refine Event.finish_ended (.inl (by rw [hg]; exact hm)) fun hidle hrun => ?_
      rw [hg] at hidle hrun
      rcases hb with hb | hb
      · rw [show e.out.sending = none from hidle] at hb
        cases hb
      · exact nomatch (show e.link.outbound = .running from hrun).symm.trans hb
    · obtain ⟨hidle, hrun⟩ := not_or.1 hb
      have hidle : e.out.sending = none := by simpa using hidle
      have hrun := OutboundState.running_of_not_quiet hrun
      obtain ⟨hfifo, hoff⟩ := ho hidle hrun
      have hend := (forwardedEnd e f nak).ended_arbitrate []
      have hfin : (e.forward f nak).finish = arbitrate ((forwardedEnd e f nak).commit.withMoments []) := by
        rw [Event.finish_eq (by rw [hg]; exact hm), hg, Event.commit_withOut, Event.chooseOutput_transit_alone
            (e := Event.begin (e.commit.withOut { e.out with fifo := e.out.fifo ++ [passedOn f nak] })) (rest := [])
            hidle ((congrArg _ e.commit_link).trans hrun) (by rw [hfifo]; rfl)
            ((originationOffer_withOut _ _).trans (e.originationOffer_commit.trans hoff)),
          forwardedEnd, Event.commit_withOut, State.outAfterForward, if_neg hb, hg, Event.commit_withOut]
        have hcm : e.commit.moments = [] := e.commit_moments.trans hm
        generalize e.commit = u at hcm
        show arbitrate (u.withOut _) = arbitrate ((u.withOut _).withMoments [])
        rw [← hcm]
        rfl
      rw [hfin]
      exact hend

theorem Event.forward_raised (e : Event) (f : Frame) (nak : Bool) : ∀ o ∈ e.raised, o ∈ (e.forward f nak).raised := by
  intro o ho
  rcases e.forward_cases f nak with ⟨-, h⟩ | ⟨-, h⟩
  · obtain ⟨P, hP⟩ := (e.raise (.transitDrop f.source f.seq)).reportUnder_marks e.node.mode .transitDrop
    rw [h]
    exact hP.raised o (List.mem_append_left _ ho)
  · rw [h]
    exact ho

theorem Event.forward_dropped (h : 4 ≤ e.out.fifo.length) :
    .transitDrop f.source f.seq ∈ (e.forward f nak).raised := by
  obtain ⟨P, hP⟩ := (e.raise (.transitDrop f.source f.seq)).reportUnder_marks e.node.mode .transitDrop
  rw [Event.forward_full h]
  exact hP.raised _ (List.mem_append_right _ (.head _))

/-- The blocks that a forwarding leaves, whether or not its transit drop isolates the node. -/
structure Passes (e g : Event) : Prop where
  resetN : g.resetN = e.resetN
  moments : g.moments = e.moments
  link : g.link = e.link
  sources : g.sources = e.sources
  mem : g.mem = e.mem
  aq : g.aq = e.aq
  arb : g.arb = e.arb
  nextSeq : g.orig.nextSeq = e.orig.nextSeq

theorem Event.forward_passes (e : Event) (f : Frame) (nak : Bool) : Passes e (e.forward f nak) := by
  rcases e.forward_cases f nak with ⟨-, h⟩ | ⟨-, h⟩
  · rw [h]
    exact ⟨Event.report_resetN _ _, Event.report_moments _ _, Event.report_link _ _, Event.report_sources _ _,
      Event.report_mem _ _, Event.report_aq _ _, Event.report_arb _ _, Event.report_nextSeq _ _⟩
  · rw [h]
    exact ⟨rfl, rfl, rfl, rfl, rfl, rfl, rfl, rfl⟩

/-- The windows and the Host Path stand, unless the transit drop isolates the node (R72, R154). -/
theorem Event.forward_isolates (hm : e.node.mode ≠ .offline) (hl : e.node.level ≠ .isolated) :
    ((e.forward f nak).node.level ≠ .isolated ∧ (e.forward f nak).windows = e.windows ∧
      (e.forward f nak).host = e.host) ∨
    (4 ≤ e.out.fifo.length ∧ (e.forward f nak).node.level = .isolated ∧ (∃ P, e.Marks P (e.forward f nak)) ∧
      (e.forward f nak).host = if e.host.hold = .publishHold then
        { e.host with path := .requesting, hold := .noHold
                      cycle := e.host.cycle.map fun c => { c with cls := .unpublished } }
      else e.host) := by
  rcases e.forward_cases f nak with ⟨hfull, h⟩ | ⟨-, h⟩
  · rw [h]
    by_cases hi : (Report.transitDrop.apply e.node).levelAfter = .isolated
    · have hst : (e.raise (.transitDrop f.source f.seq)).report .transitDrop =
          ((e.raise (.transitDrop f.source f.seq)).on fun s => s.withNode (Report.transitDrop.apply s.node)).isolate :=
        Event.reportUnder_isolating (e := e.raise (.transitDrop f.source f.seq)) hm hl hi
      rw [hst]
      refine .inr ⟨hfull, by rw [Event.isolate_node], ⟨_, Event.Marks.none_trans (f := e.raise (.transitDrop f.source f.seq))
        rfl (fun _ ho => List.mem_append_left _ ho) (Event.on_withNode_isolate_marks _ _)⟩, Event.isolate_host _⟩
    · have hst := (Event.reportUnder_kept (e := e.raise (.transitDrop f.source f.seq)) (m := e.node.mode)
        (r := .transitDrop) hm (.inr hi)).1
      left
      unfold Event.report
      rw [show (e.raise (.transitDrop f.source f.seq)).node.mode = e.node.mode from rfl, hst]
      exact ⟨hi, rfl, rfl⟩
  · rw [h]
    exact .inl ⟨hl, rfl, rfl⟩

/-! ## The end of an arrival that is forwarded -/

/-- An event in which the frame of an arrival has been handled and goes on: what stands of the state it arrived in, but
for the windows, the Sequence Table and the Apply Queue. -/
structure Handled (s : State) (h : Event) : Prop where
  resetN : h.resetN = true
  moments : h.moments = []
  settled : OutputSettled h.toState
  link : h.link = s.linkAfterFrame
  out : h.out = s.out
  mem : h.mem = s.mem
  arb : h.arb = s.arb
  host : h.host = s.host
  nextSeq : h.orig.nextSeq = s.orig.nextSeq
  mode : h.node.mode ≠ .offline
  level : h.node.level ≠ .isolated
  diverged : ∀ i : WinIdx, h.windows[i].diverged = s.windows[i].diverged

variable {h : Event}

/-- What the arrival of a frame leaves that has been handled and goes on. -/
theorem Handled.forwarded (H : Handled s h) (f : Frame) (nak : Bool) : ∃ t, (h.forward f nak).finish = t ∧
    t.sources = h.sources ∧ t.out = s.outAfterForward (passedOn f nak) ∧ t.link = s.linkAfterFrame ∧ t.mem = s.mem ∧
    t.orig.nextSeq = s.orig.nextSeq ∧ (∀ o ∈ h.raised, Pending t o.cause) ∧
    (4 ≤ s.out.fifo.length → Pending t 13) ∧ WindowsAre (fun i => h.windows[i]) s t ∧
    Ended (forwardedEnd h f nak) t := by
  have hend := Event.forward_ended (f := f) (nak := nak) H.moments H.settled
  have hpass := h.forward_passes f nak
  have hpend {o : Occurrence} (ho : o ∈ (h.forward f nak).raised) : Pending (h.forward f nak).finish o.cause :=
    Event.pending_finish (hpass.resetN.trans H.resetN) ho
  generalize (h.forward f nak).finish = t at hend hpend
  refine ⟨t, rfl, hend.sources.trans hpass.sources, hend.out.trans ?_, hend.link.trans (hpass.link.trans H.link),
    hend.mem.trans (hpass.mem.trans H.mem), ?_, fun o ho => hpend (h.forward_raised f nak o ho),
    fun hfull => hpend (Event.forward_dropped (by rw [H.out]; exact hfull)), fun i => ?_, hend⟩
  · show h.toState.outAfterForward _ = _
    unfold State.outAfterForward
    rw [H.out, H.link]
    rfl
  · rw [hend.orig]
    exact hpass.nextSeq.trans H.nextSeq
  · have hw : t.windows = (h.forward f nak).windows := hend.windows
    rw [hw]
    rcases Event.forward_isolates (f := f) (nak := nak) H.mode H.level with ⟨-, hwin, -⟩ | ⟨hfull, hiso, ⟨P, hP⟩, -⟩
    · rw [hwin]
      exact ⟨rfl, fun _ => H.diverged i⟩
    · rw [← H.diverged i]
      refine ⟨hP.rest i, fun hn => ?_⟩
      rcases hn with hn | hn
      · rw [H.out] at hfull
        omega
      · exact absurd ((congrArg NodeControl.level hend.node).trans hiso) hn

/-- With the Apply Queue as it was, the choice leaves it so. -/
theorem Handled.aq_eq {nak : Bool} {t : State} (H : Handled s h) (hs : Settled s) (hq : h.aq = s.aq)
    (hend : Ended (forwardedEnd h f nak) t) : t.aq = s.aq := by
  have hpass := h.forward_passes f nak
  have haq : (forwardedEnd h f nak).aq = s.aq := hpass.aq.trans hq
  have harb : (forwardedEnd h f nak).arb = s.arb := hpass.arb.trans H.arb
  exact (hend.aq_eq (by rw [haq, harb]; exact fun hc => (hs.2.2 hc).2)).trans haq

/-- An event that has changed the Sequence Table, the Apply Queue and the windows but for DIVERGED alone. -/
theorem Greeted.handled (hg : Greeted s e) (hs : Settled s) (hr : s.resetN = true) (hm : s.node.mode ≠ .offline)
    {src : Vector SeqEntry 16} {q : ApplyQueue} {ws : Vector Window 16}
    (hst : h.toState = ((e.toState.withSources src).withAq q).withWindows ws)
    (hd : ∀ i : WinIdx, ws[i].diverged = s.windows[i].diverged) : Handled s h := by
  obtain ⟨hresetN, hhost, -, -, horig, hlink, hout, -, -, harb, hmem, -, -, hmoments⟩ := hg.fields
  obtain ⟨-, hmode, -⟩ := hg.node
  have hem : e.node.mode ≠ .offline := by rwa [hmode]
  refine ⟨by rw [hst]; exact hresetN.trans hr, by rw [hst]; exact hmoments.trans hs.1, ?_, by rw [hst]; exact hlink,
    by rw [hst]; exact hout, by rw [hst]; exact hmem, by rw [hst]; exact harb, by rw [hst]; exact hhost,
    by rw [hst]; exact congrArg _ horig, by rw [hst]; exact hem, by rw [hst]; exact hg.law.unisolated hem,
    fun i => by rw [hst]; exact hd i⟩
  rw [hst]
  exact (hg.outputSettled hs).congr rfl rfl (originationOffer_congr rfl rfl rfl)

end Forwarding

/-! ## Foreign frames (R70, R105, R108) -/

section Foreign
variable {s : State} {e : Event} {f : Frame} {bytes : List Byte}

theorem Event.goodArrival_orphan (hs : f.source ≠ e.node.nodeId) (hh : f.hops = 15) :
    e.goodArrival f = e.on countOrphan := by
  rw [Event.goodArrival, if_neg hs, if_pos hh]

theorem Event.goodArrival_offline (hs : f.source ≠ e.node.nodeId) (hh : f.hops ≠ 15) (hm : e.node.mode = .offline) :
    e.goodArrival f = e.forward f f.nak := by
  rw [Event.goodArrival, if_neg hs, if_neg hh, if_pos hm]

theorem Event.goodArrival_announce (hs : f.source ≠ e.node.nodeId) (hh : f.hops ≠ 15) (hm : e.node.mode ≠ .offline)
    (hb : f.body = .announce) :
    e.goodArrival f = (e.on (updateSource f.source fun x => x.rebase f.seq)).forward f f.nak := by
  rw [Event.goodArrival, if_neg hs, if_neg hh, if_neg hm, hb]

theorem Event.goodArrival_update (hs : f.source ≠ e.node.nodeId) (hh : f.hops ≠ 15) (hm : e.node.mode ≠ .offline)
    {ch : Byte} {span : SpanOffset} {mask : SpanMask} {words : List Word} (hb : f.body = .update ch span mask words) :
    e.goodArrival f =
      (e.updateArrived f ch span mask words).1.forward f (f.nak || (e.updateArrived f ch span mask words).2) := by
  rw [Event.goodArrival, if_neg hs, if_neg hh, if_neg hm, hb]

/-- A record's time and place come from the timebase and the queue alone (R164). -/
theorem appendIncident_attn_congr {s t : State} {o : Occurrence} (ha : t.attn = s.attn)
    (ht : t.node.timebase = s.node.timebase) :
    (appendIncident t o).attn = (appendIncident s o).attn := by
  unfold appendIncident
  simp only [ha, ht]
  split <;> rfl

theorem appendIncident_mgmt_congr {s t : State} {o : Occurrence} (ha : t.attn = s.attn) (hm : t.mgmt = s.mgmt) :
    (appendIncident t o).mgmt = (appendIncident s o).mgmt := by
  unfold appendIncident
  simp only [ha]
  split
  next => exact hm
  next => simp [hm]

end Foreign

/-- Settles O24: the orphan and the announcement of a running node. -/
theorem announceRebasesItsSource : Obligations.AnnounceRebasesItsSource := by
  intro bytes f s hp hs hmode hlevel ha hsrc hm
  obtain ⟨e, hg, hexec⟩ := exec_arrival hp ha hlevel
  obtain ⟨hresetN, hhost, hwin, hpq, horig, hlink, hout, hsources, haq, harb, hmem, hattn, hmgmt, hmoments⟩ := hg.fields
  obtain ⟨hid, hem, -, -, -, hnode⟩ := hg.node
  refine ⟨fun hh => ⟨_, hexec, ?_⟩, fun hh hb => ?_⟩
  · rw [Event.goodArrival_orphan (by rwa [hid]) hh]
    have hend : Ended (e.on countOrphan) (e.on countOrphan).finish := Event.finish_ended (.inl (hmoments.trans hs.1))
      ((hg.outputSettled hs).congr rfl rfl (originationOffer_congr rfl rfl rfl))
    generalize (e.on countOrphan).finish = t at hend
    obtain ⟨h1, h2⟩ := hend.host_stands hs hhost haq harb
    refine ⟨?_, hend.sources.trans hsources, hend.out.trans hout, (hend.aq_eq ?_).trans haq, hend.windows.trans hwin,
      hend.mem.trans hmem, hend.orig.trans horig, hend.pq.trans hpq, h1, h2, hend.resetN.trans hresetN,
      by rw [hend.node]; exact hnode, fun hl => ?_, fun hl => ?_, ?_⟩
    · rw [LifLowered, hend.node]
      exact hg.lif
    · show e.arb.cycle = none → e.aq.entries = []
      rw [harb, haq]
      exact fun hc => (hs.2.2 hc).2
    · rw [hend.node] at hl
      have hc : (e.on countOrphan).commit = countOrphan e.toState :=
        Event.commit_of_nil _ (hg.raised.trans (if_pos hl))
      rw [hend.attn, hend.mgmt, hc]
      exact ⟨hattn, hmgmt⟩
    · rw [hend.node] at hl ⊢
      have hc : (e.on countOrphan).commit = appendIncident (countOrphan e.toState) .levelChange :=
        Event.commit_of_single _ _ (hresetN.trans ha.1) (hg.raised.trans (if_neg hl))
      obtain ⟨lif, level, hst⟩ := hg.state
      obtain ⟨h3, h4⟩ := hg.restored hl
      rw [hend.attn, hend.mgmt, hc, hst]
      exact ⟨h3, h4, appendIncident_attn_congr rfl rfl, appendIncident_mgmt_congr rfl rfl⟩
    · refine hend.link.trans ?_
      show { e.link with orphans := satSucc16 e.link.orphans } = _
      rw [hlink, satSucc16_eq]
      rfl
  · rw [Event.goodArrival_announce (by rwa [hid]) hh (by rwa [hem]) hb] at hexec
    have H : Handled s (e.on (updateSource f.source fun x => x.rebase f.seq)) :=
      hg.handled hs ha.1 hm (src := (updateSource f.source (fun x => x.rebase f.seq) e.toState).sources) (q := e.aq)
        (ws := e.windows) rfl fun i => by rw [hwin]
    obtain ⟨t, ht, h1, h2, h3, h4, h5, -, h7, -, hend⟩ := H.forwarded f f.nak
    rw [ht] at hexec
    refine ⟨t, hexec, h1.trans ?_, h2, h3, H.aq_eq hs haq hend, h4, h5, fun _ hfull => h7 hfull⟩
    show e.sources.set f.source _ = _
    rw [hsources]
    rfl

/-! ## An OFFLINE node (R105) -/

section Offline
variable {s u : State} {f : Frame} {bytes : List Byte}

theorem exec_arrival_offline (hp : parseFrame bytes = some f) (ha : Arriving s bytes) (hm : s.node.mode = .offline) :
    exec (.frameArrival bytes) s = .next ((Event.begin (s.withLink s.linkAfterFrame)).goodArrival f).finish := by
  rw [exec_greeting hp ha, greeting_offline hm]

theorem exec_forwarded_offline (hp : parseFrame bytes = some f) (ha : Arriving s bytes) (hm : s.node.mode = .offline)
    (hsrc : f.source ≠ s.node.nodeId) (hh : f.hops ≠ 15) :
    exec (.frameArrival bytes) s = .next ((Event.begin (s.withLink s.linkAfterFrame)).forward f f.nak).finish := by
  rw [exec_arrival_offline hp ha hm, Event.goodArrival_offline hsrc hh hm]

/-- The event of a frame with room in the Transit FIFO. -/
theorem forward_begin (h : u.out.fifo.length < 4) (nak : Bool) : (Event.begin u).forward f nak =
    Event.begin (u.withOut { u.out with fifo := u.out.fifo ++ [passedOn f nak] }) := Event.forward_room h

theorem LinkLaw.running (h : LinkLaw s) (hr : s.resetN = true) : s.link.outbound = .running := by
  obtain ⟨-, -, -, -, -, -, -, hq, -⟩ := h
  refine OutboundState.running_of_not_quiet fun hl => ?_
  rw [hq.1 hl] at hr
  cases hr

theorem settled_after_frame (hs : Settled s) : Settled (s.withLink s.linkAfterFrame) := settled_withLink hs rfl

/-- The last event of a moment that hands a frame to an idle link with nothing else to send. -/
theorem forwarded_last (hm : u.moments = [0]) (hidle : u.out.sending = none) (hrun : u.link.outbound = .running)
    (hfifo : u.out.fifo = []) (hoff : originationOffer u = none) (nak : Bool) :
    ((Event.begin u).forward f nak).finish.out = { fifo := [], sending := some (passedOn f nak), starvation := 0 } := by
  rw [forward_begin (by rw [hfifo]; decide), Event.finish_of_last _ hm, Event.commit_of_nil _ rfl, choices_eq,
    arbitrate_out, Event.chooseOutput_transit_alone (f := passedOn f nak) (rest := []) hidle hrun
      (by show u.out.fifo ++ [passedOn f nak] = _; rw [hfifo]; rfl) ((originationOffer_congr rfl rfl rfl).trans hoff)]
  rfl

/-- A frame with room on a block between moments: it waits behind a transmission, or an idle link sends it. -/
theorem forwarded_alone (hs : Settled u) (hrun : u.link.outbound = .running)
    (hroom : ¬(u.out.sending.isSome = true ∧ 4 ≤ u.out.fifo.length)) (nak : Bool) :
    ((Event.begin u).forward f nak).finish = u.withOut (u.outAfterForward (passedOn f nak)) := by
  have hlen : u.out.fifo.length < 4 := by
    cases hb : u.out.sending with
    | none => rw [(hs.2.1 hb hrun).1]; decide
    | some x => exact Nat.lt_of_not_le fun h => hroom ⟨by rw [hb]; rfl, h⟩
  rw [forward_begin hlen, Event.finish_eq hs.1, Event.commit_of_nil _ rfl, State.outAfterForward]
  generalize hv : u.withOut { u.out with fifo := u.out.fifo ++ [passedOn f nak] } = v
  have harb : v.arb.cycle = none → hostRequest v = none ∧ v.aq.entries = [] := by rw [← hv]; exact hs.2.2
  show arbitrate (Event.begin v).chooseOutput.toState = _
  cases hb : u.out.sending with
  | some x =>
    have hset : OutputSettled v := OutputSettled.of_busy (by rw [← hv]; exact (congrArg Option.isSome hb).trans rfl)
    rw [OutputSettled.chooseOutput (e := Event.begin v) hset, if_pos (.inl rfl), if_pos hlen]
    exact (arbitrate_still harb).trans hv.symm
  | none =>
    obtain ⟨hfifo, hoff⟩ := hs.2.1 hb hrun
    rw [Event.chooseOutput_transit_alone (e := Event.begin v) (f := passedOn f nak) (rest := []) (by rw [← hv]; exact hb)
      (by rw [← hv]; exact hrun) (by rw [← hv]; show u.out.fifo ++ _ = _; rw [hfifo]; rfl)
      (by rw [← hv]; exact (originationOffer_congr rfl rfl rfl).trans hoff), if_neg (by simp [hrun])]
    have hst : ((Event.begin v).on (sendTransit (passedOn f nak) [] 0)).toState =
        u.withOut { fifo := [], sending := some (passedOn f nak), starvation := 0 } := by rw [← hv]; rfl
    rw [hst]
    exact arbitrate_still hs.2.2

/-- A soft reset that shares its moment with a later event (R77; assumption 25). -/
theorem softReset_first (hc : Completing s [0x0A]) : ∃ u, exec .softReset (s.withMoments [1]) = .next u ∧
    u.moments = [0] ∧ u.resetN = s.resetN ∧ u.node.mode = .offline ∧ u.node.nodeId = s.node.nodeId ∧
    u.link = { s.link with orphans := 0 } ∧ u.out = { s.out with fifo := [], starvation := 0 } ∧
    originationOffer u = none := by
  obtain ⟨hresetN, hlink, hout, -, -, hnode, -, -, hmom⟩ := softBase_rest (s.withMoments [1])
  have horig := softBase_orig (s.withMoments [1])
  obtain ⟨e, he⟩ : ∃ e, e = (Event.begin (setMclk true (s.withMoments [1]))).softReset := ⟨_, rfl⟩
  have hst : e.toState = softRest (softBase (s.withMoments [1])) := by rw [he]; rfl
  have hcommit : e.commit = softRest (softBase (s.withMoments [1])) := (Event.commit_of_nil e (by rw [he]; rfl)).trans hst
  refine ⟨(e.commit.withMoments [0]).responding .softReset [] [0x00], ?_, rfl, ?_, ?_, ?_, ?_, ?_, ?_⟩
  · rw [exec_softReset (s := s.withMoments [1]) hc, ← he, Event.finish_of_shared e (k := 0) (later := []) (by rw [hst, softRest_eq]; exact hmom)]
  · show e.commit.resetN = _
    rw [hcommit, softRest_eq]
    exact hresetN
  · show e.commit.node.mode = _
    rw [hcommit, softRest_eq]
  · show e.commit.node.nodeId = _
    rw [hcommit, softRest_eq]
    show (softBase (s.withMoments [1])).node.nodeId = _
    rw [hnode]
    rfl
  · show e.commit.link = _
    rw [hcommit, softRest_eq]
    exact congrArg (fun l : LinkInterface => { l with orphans := 0 }) hlink
  · show e.commit.out = _
    rw [hcommit, softRest_eq]
    exact congrArg (fun o : OutputArbiter => { o with fifo := [], starvation := 0 }) hout
  · refine (originationOffer_congr (s := e.commit) rfl rfl rfl).trans ?_
    rw [hcommit, softRest_eq]
    simp [originationOffer, announceOffer, horig, Mode.sends]

end Offline

/-- Settles O23: the orphan, the frame that goes on, the one dropped, and the two orders of a soft reset in its moment. -/
theorem orphansAndOfflineForwarding : Obligations.OrphansAndOfflineForwarding := by
  intro bytes f s hp hs hmode hlink ha hsrc hm
  have hrun := hlink.running ha.1
  have hset := settled_after_frame hs
  refine ⟨fun hh => ?_, fun hh hroom => ?_, fun hh hbusy hfull => ?_, fun hh hidle hc => ⟨?_, ?_⟩⟩
  · have ho : OutputSettled (countOrphan (s.withLink s.linkAfterFrame)) :=
      OutputSettled.congr (s := s) hs.2.1 rfl rfl (originationOffer_congr rfl rfl rfl)
    rw [exec_arrival_offline hp ha hm, Event.goodArrival_orphan hsrc hh,
      Event.finish_of_output (e := (Event.begin (s.withLink s.linkAfterFrame)).on countOrphan) hs.1 ho,
      Event.commit_of_nil _ rfl]
    refine congrArg _ ((arbitrate_still (s := countOrphan (s.withLink s.linkAfterFrame)) hset.2.2).trans ?_)
    show (s.withLink s.linkAfterFrame).withLink { s.linkAfterFrame with orphans := satSucc16 s.link.orphans } = _
    rw [satSucc16_eq]
    rfl
  · rw [exec_forwarded_offline hp ha hm hsrc hh, forwarded_alone hset hrun hroom]
    rfl
  · have hg := Event.forward_full (e := Event.begin (s.withLink s.linkAfterFrame)) (f := f) (nak := f.nak) hfull
    have hreport : ((Event.begin (s.withLink s.linkAfterFrame)).raise (.transitDrop f.source f.seq)).report .transitDrop =
        (Event.begin (s.withLink s.linkAfterFrame)).raise (.transitDrop f.source f.seq) := by
      show Event.reportUnder _ s.node.mode _ = _
      rw [hm, Event.reportUnder_offline]
    rw [exec_forwarded_offline hp ha hm hsrc hh, hg, hreport, Event.finish_of_output
      (e := (Event.begin (s.withLink s.linkAfterFrame)).raise (.transitDrop f.source f.seq)) hs.1
      (OutputSettled.of_busy hbusy), Event.commit_of_single _ _ ha.1 rfl]
    refine congrArg _ (arbitrate_still ?_)
    rw [appendIncident_arb, appendIncident_aq, hostRequest, appendIncident_host]
    exact hs.2.2
  · have hfifo := (hs.2.1 hidle hrun).1
    have hexec := exec_forwarded_offline (s := s.withMoments [1]) hp ha hm hsrc hh
    rw [forward_begin (by show s.out.fifo.length < 4; rw [hfifo]; decide), Event.finish_of_shared _ (k := 0) (later := []) rfl,
      Event.commit_of_nil _ rfl] at hexec
    refine ⟨_, hexec, ?_, ?_⟩
    · show { s.out with fifo := s.out.fifo ++ [passedOn f f.nak] } = _
      rw [hfifo]
      rfl
    · obtain ⟨e, t, hexec', hend, hst, -⟩ := softReset_next (s := (((s.withMoments [1]).withLink
        (s.withMoments [1]).linkAfterFrame).withOut { s.out with fifo := s.out.fifo ++ [passedOn f f.nak] }).withMoments [0])
        hc (.inr ⟨[], rfl⟩)
      refine ⟨_, hexec', ?_⟩
      obtain ⟨-, -, hout, -⟩ := softBase_rest ((((s.withMoments [1]).withLink
        (s.withMoments [1]).linkAfterFrame).withOut { s.out with fifo := s.out.fifo ++ [passedOn f f.nak] }).withMoments [0])
      refine hend.out.trans ?_
      rw [hst, softRest_eq]
      show OutputArbiter.mk _ _ _ = _
      rw [hout]
      exact congrArg (fun x => OutputArbiter.mk [] x 0) hidle
  · obtain ⟨u, hexec, hmom, hresetN, hoff, hid, hl, hout, hnone⟩ := softReset_first hc
    have ha' : Arriving u bytes := ⟨hresetN.trans ha.1, by rw [hl]; exact ha.2.1, ha.2.2.1, by rw [hl]; exact ha.2.2.2⟩
    refine ⟨u, hexec, _, exec_forwarded_offline hp ha' hoff (by rwa [hid]) hh, ?_⟩
    exact forwarded_last (u := u.withLink u.linkAfterFrame) hmom (by show u.out.sending = none; rw [hout]; exact hidle)
      (by show u.link.outbound = _; rw [hl]; exact hrun) (by show u.out.fifo = _; rw [hout])
      ((originationOffer_congr rfl rfl rfl).trans hnone) f.nak

end Sys2Proof.Machine
end

section
/-! SUPPORT. The entry an UPDATE makes (R113, R114, R124, R125), STALE requests on several windows (R21) and the
channel lookup (R20). -/

namespace Sys2Proof.Machine

/-! ## Spans and words -/

section Spans

theorem placeWords_of_not_mem {k : Position} : ∀ {ps : List Position} {ws : List Word} {acc : SpanWords}, k ∉ ps →
    (placeWords ps ws acc)[k] = acc[k]
  | [], _, _, _ => rfl
  | _ :: _, [], _, _ => rfl
  | p :: ps, w :: ws, acc, h => by
    obtain ⟨hp, hps⟩ := not_or.1 (mt List.mem_cons.2 h)
    rw [placeWords, placeWords_of_not_mem hps, Fin.getElem_fin,
      Vector.getElem_set_ne _ _ fun hv => hp (Fin.ext hv.symm)]
    rfl

theorem map_placeWords : ∀ {ps : List Position} {ws : List Word} {acc : SpanWords}, ps.Nodup → ws.length = ps.length →
    ps.map (fun k => (placeWords ps ws acc)[k]) = ws
  | [], [], _, _, _ => rfl
  | [], _ :: _, _, _, h => nomatch h
  | _ :: _, [], _, _, h => nomatch h
  | p :: ps, w :: ws, acc, hn, hl => by
    obtain ⟨hp, hps⟩ := List.nodup_cons.1 hn
    rw [List.map_cons, placeWords, map_placeWords hps (Nat.succ.inj hl), placeWords_of_not_mem hp]
    congr 1
    exact Vector.getElem_set_self _

theorem nodup_presentPositions (m : SpanMask) : (presentPositions m).Nodup :=
  List.Nodup.filter _ (by decide : allPositions.Nodup)

theorem head_presentPositions {m : SpanMask} (h : m ≠ 0) : (presentPositions m).head? = some (lowestPresent m) := by
  obtain ⟨k, hk⟩ := exists_present h
  unfold lowestPresent
  cases hl : presentPositions m with
  | nil => exact absurd (mem_presentPositions.2 hk) (by simp [hl])
  | cons j rest => rfl

/-- The base of a span that starts in a written window (R18, R20). -/
theorem spanBase_toNat {w : Window} {span : SpanOffset} (hb : w.base.toNat % 2 ^ w.sizeCode.toNat = 0)
    (hs : 4 * span.toNat < 2 ^ w.sizeCode.toNat) : (w.spanBase span).toNat = w.base.toNat + 4 * span.toNat := by
  have hspan := span.isLt
  have hbase := w.base.isLt
  have hfits : w.base.toNat + 4 * span.toNat < 2 ^ 22 := by
    by_cases hc : w.sizeCode.toNat ≤ 22
    · obtain ⟨k, hk⟩ : 2 ^ w.sizeCode.toNat ∣ 2 ^ 22 := Nat.pow_dvd_pow 2 hc
      obtain ⟨j, hj⟩ := Nat.dvd_of_mod_eq_zero hb
      have hjk : j < k := by
        rw [hj, hk] at hbase
        exact Nat.lt_of_mul_lt_mul_left hbase
      calc w.base.toNat + 4 * span.toNat < 2 ^ w.sizeCode.toNat * j + 2 ^ w.sizeCode.toNat := by omega
        _ = 2 ^ w.sizeCode.toNat * (j + 1) := by ring
        _ ≤ 2 ^ w.sizeCode.toNat * k := Nat.mul_le_mul_left _ hjk
        _ = 2 ^ 22 := hk.symm
    · have hpow : 2 ^ 22 < 2 ^ w.sizeCode.toNat := Nat.pow_lt_pow_right (by decide) (by omega)
      have h0 : w.base.toNat = 0 := by
        rw [Nat.mod_eq_of_lt (by omega)] at hb
        exact hb
      omega
  rw [Window.spanBase, BitVec.toNat_add, BitVec.toNat_ofNat, Nat.mod_eq_of_lt (a := 4 * span.toNat) (by omega),
    Nat.mod_eq_of_lt hfits]

end Spans

/-! ## STALE requests (R21) -/

section Stale
variable {e : Event}

/-- A window with STALE set when it is a MIRROR window and asked. -/
def staled (P : Prop) [Decidable P] (w : Window) : Window := if P ∧ w.kind = .mirror then { w with stale := true } else w

theorem staled_of_stale {P : Prop} [Decidable P] {w : Window} (h : w.kind = .mirror → w.stale = true) : staled P w = w := by
  unfold staled
  split
  next hp => rw [← h hp.2]
  next => rfl

theorem staled_of_not {P : Prop} [Decidable P] {w : Window} (h : ¬P) : staled P w = w := if_neg fun hp => h hp.1

theorem Event.requestStale_window (e : Event) (i j : WinIdx) :
    (e.requestStale i).windows[j] = staled (i = j) e.windows[j] := by
  rw [Event.requestStale_eq]
  by_cases hc : e.windows[i].kind = .mirror ∧ e.windows[i].stale = false
  · rw [if_pos hc]
    show (e.windows.set i { e.windows[i] with stale := true })[j] = _
    by_cases hij : i = j
    · subst hij
      rw [staled, if_pos ⟨rfl, hc.1⟩]
      exact Vector.getElem_set_self _
    · rw [staled_of_not hij, Fin.getElem_fin, Vector.getElem_set_ne _ _ (fun hv => hij (Fin.ext hv))]
      rfl
  · rw [if_neg hc]
    by_cases hij : i = j
    · subst hij
      exact (staled_of_stale fun hk => by
        by_contra hn
        exact hc ⟨hk, Bool.eq_false_iff.2 hn⟩).symm
    · exact (staled_of_not hij).symm

theorem Event.requestStale_raised (e : Event) (i : WinIdx) : ∀ o ∈ e.raised, o ∈ (e.requestStale i).raised := by
  intro o ho
  rw [Event.requestStale_eq]
  split
  · exact List.mem_append_left _ ho
  · exact ho

theorem Event.requestStale_caused {i : WinIdx} (hk : e.windows[i].kind = .mirror) (hs : e.windows[i].stale = false) :
    .staleMarked i ∈ (e.requestStale i).raised := by
  rw [Event.requestStale_eq, if_pos ⟨hk, hs⟩]
  exact List.mem_append_right _ (.head _)

theorem staled_staled {P Q : Prop} [Decidable P] [Decidable Q] (w : Window) :
    staled Q (staled P w) = staled (P ∨ Q) w := by
  unfold staled
  by_cases hk : w.kind = .mirror <;> by_cases hp : P <;> by_cases hq : Q <;> simp [hk, hp, hq]

theorem staled_fields (P : Prop) [Decidable P] (w : Window) :
    (staled P w).kind = w.kind ∧ (staled P w).enabled = w.enabled ∧ (staled P w).channel = w.channel ∧
      (staled P w).base = w.base ∧ (staled P w).sizeCode = w.sizeCode ∧ (staled P w).diverged = w.diverged := by
  unfold staled
  split <;> exact ⟨rfl, rfl, rfl, rfl, rfl, rfl⟩

theorem Event.requestStaleAll_window (e : Event) (is : List WinIdx) (j : WinIdx) :
    (e.requestStaleAll is).windows[j] = staled (j ∈ is) e.windows[j] := by
  induction is generalizing e with
  | nil => exact (staled_of_not (List.not_mem_nil)).symm
  | cons i is ih =>
    refine (ih (e.requestStale i)).trans ?_
    rw [Event.requestStale_window, staled_staled]
    unfold staled
    simp [List.mem_cons, eq_comm]

theorem Event.requestStaleAll_raised (e : Event) (is : List WinIdx) :
    ∀ o ∈ e.raised, o ∈ (e.requestStaleAll is).raised := by
  induction is generalizing e with
  | nil => exact fun _ ho => ho
  | cons i is ih => exact fun o ho => ih _ o (e.requestStale_raised i o ho)

theorem Event.requestStaleAll_caused {is : List WinIdx} {i : WinIdx} (hi : i ∈ is) (hk : e.windows[i].kind = .mirror)
    (hs : e.windows[i].stale = false) : .staleMarked i ∈ (e.requestStaleAll is).raised := by
  induction is generalizing e with
  | nil => cases hi
  | cons k is ih =>
    by_cases hik : k = i
    · subst hik
      exact Event.requestStaleAll_raised _ is _ (Event.requestStale_caused hk hs)
    · have hw : (e.requestStale k).windows[i] = e.windows[i] := by rw [Event.requestStale_window, staled_of_not hik]
      exact ih (e := e.requestStale k) ((List.mem_cons.1 hi).resolve_left (Ne.symm hik)) (by rw [hw, hk]) (by rw [hw, hs])

end Stale

/-! ## The channel lookup (R20) -/

section Lookup
variable {s : State} {ws : Vector Window 16} {ch : Byte}

theorem channelLookup_some {i : WinIdx} (h : channelLookup ws ch = some i) : ws[i].enabled = true ∧ ws[i].channel = ch := by
  have := List.find?_some h
  simpa using this

theorem channelLookup_isSome {i : WinIdx} (h : ws[i].enabled = true ∧ ws[i].channel = ch) :
    ∃ j, channelLookup ws ch = some j := by
  cases hc : channelLookup ws ch with
  | some j => exact ⟨j, rfl⟩
  | none =>
    have := List.find?_eq_none.1 hc i (mem_allWindows i)
    simp only [Bool.and_eq_true, beq_iff_eq] at this
    exact absurd h this

/-- At most one enabled window carries a channel (R28). -/
theorem WindowLaw.unique (h : WindowLaw s) {i j : WinIdx} (hi : Carries s i ch) (hj : Carries s j ch) : i = j := by
  by_contra hne
  exact ((h i).2 hi.1).2 j hj.1 hne |>.1 (hi.2.trans hj.2.symm)

theorem mem_enabledMirrors {i : WinIdx} : i ∈ enabledMirrors ws ↔ ws[i].enabled = true ∧ ws[i].kind = .mirror := by
  simp [enabledMirrors, mem_allWindows]

end Lookup

/-! ## The new entry and its grant (R114, R125, R129, R133) -/

section Entry
variable {s t u : State} {h : Event} {f : Frame} {nak : Bool} {i : WinIdx} {span : SpanOffset} {mask : SpanMask}
  {words : List Word}

/-- The entry an UPDATE makes in window i (R114). -/
def arrivedEntry (s : State) (i : WinIdx) (span : SpanOffset) (mask : SpanMask) (words : List Word) : AqEntry :=
  { acc := s.aq.nextAcc, base := s.windows[i].spanBase span, mask := mask
    words := placeWords (presentPositions mask) words zeroWords, window := i, state := .waiting
    next := lowestPresent mask }

/-- The Apply Queue with the new entry at its tail (R125). -/
def arrivedQueue (s : State) (i : WinIdx) (span : SpanOffset) (mask : SpanMask) (words : List Word) : ApplyQueue :=
  { entries := s.aq.entries ++ [arrivedEntry s i span mask words], nextAcc := s.aq.nextAcc + 1 }

theorem arbitrate_nextAcc (u : State) : (arbitrate u).aq.nextAcc = u.aq.nextAcc := by
  unfold arbitrate
  split
  · rfl
  · split
    next c _ => unfold grantCycle; cases c.grant <;> rfl
    · rfl

/-- Beside no host request, or in a READ_HOLD, an entry is granted (R133). -/
theorem arbiterChoice_apply {a : AqEntry} (ha : u.aq.entries = [a]) (hr : hostRequest u = none) :
    arbiterChoice u = some a.wordCycle := by
  simp [arbiterChoice, applyRequest, ha, hr]

/-- Beside a host request out of READ_HOLD, the requester not granted last is granted (R133). -/
theorem arbiterChoice_both {a : AqEntry} {c : MemCycle} (ha : u.aq.entries = [a]) (hr : hostRequest u = some c)
    (hh : u.host.hold ≠ .readHold) :
    arbiterChoice u = some (if u.arb.lastGrant = .apply then c else a.wordCycle) := by
  simp only [arbiterChoice, applyRequest, ha, hr, List.head?_cons, Option.map_some, if_neg hh]
  split <;> rfl

/-- The one entry of an arrival at a free port is granted, unless the transit drop isolates the node and the write it
demotes from PUBLISH_HOLD is chosen first (R48, R133, R154). -/
theorem Handled.entry_granted (H : Handled s h) (hs : Settled s) {a : AqEntry} (ha : h.aq.entries = [a])
    (hfree : s.arb.cycle = none) (hend : Ended (forwardedEnd h f nak) t) :
    t.arb.cycle.map MemCycle.grant = some (if HostChosenFirst s t then .host else .apply) := by
  have hpass := h.forward_passes f nak
  obtain ⟨u, hu⟩ : ∃ u, u = (forwardedEnd h f nak).toState := ⟨_, rfl⟩
  have huarb : u.arb = s.arb := by rw [hu]; exact hpass.arb.trans H.arb
  have huaq : u.aq.entries = [a] := by rw [hu]; exact (congrArg ApplyQueue.entries hpass.aq).trans ha
  have huhost : u.host = (h.forward f nak).host := by rw [hu]; rfl
  have hlevel : t.node.level = (h.forward f nak).node.level := congrArg NodeControl.level hend.node
  have hfree' : u.arb.cycle = none := by rw [huarb, hfree]
  have hstill : hostRequest s = none := (hs.2.2 hfree).1
  rw [hend.arb, ← hu]
  have happly (hr : hostRequest u = none) (hn : ¬HostChosenFirst s t) :
      (arbitrate u).arb.cycle.map MemCycle.grant = some (if HostChosenFirst s t then .host else .apply) := by
    rw [granted_of_choice hfree' (arbiterChoice_apply huaq hr), if_neg hn]
    rfl
  have hsame (hh : u.host = s.host) : hostRequest u = none := by
    rw [hostRequest, hh]
    exact hstill
  rcases Event.forward_isolates (f := f) (nak := nak) H.mode H.level with ⟨hl, -, hhost⟩ | ⟨-, hl, -, hhost⟩
  · exact happly (hsame (huhost.trans (hhost.trans H.host))) fun hf => hl (hlevel.symm.trans hf.1)
  · rw [H.host] at hhost
    by_cases hp : s.host.hold = .publishHold
    · rw [if_pos hp, ← huhost] at hhost
      rcases Option.eq_none_or_eq_some s.host.cycle with hc | ⟨r, hc⟩
      · refine happly ?_ fun hf => ?_
        · rw [hostRequest, hhost, hc]
          rfl
        · have hcycle := hf.2.2.1
          rw [hc] at hcycle
          cases hcycle
      · have hreq : ∃ c, hostRequest u = some c ∧ c.grant = .host := by
          rw [hostRequest, hhost, hc]
          exact ⟨_, rfl, rfl⟩
        obtain ⟨c, hreq, hg⟩ := hreq
        rw [granted_of_choice hfree' (arbiterChoice_both huaq hreq (by rw [hhost]; exact fun h => nomatch h)), huarb]
        by_cases hlast : s.arb.lastGrant = .apply
        · rw [if_pos hlast, if_pos ⟨hlevel.trans hl, hp, by rw [hc]; rfl, hlast⟩, hg]
        · rw [if_neg hlast, if_neg fun hf => hlast hf.2.2.2]
          rfl
    · rw [if_neg hp, ← huhost] at hhost
      exact happly (hsame hhost) fun hf => hp hf.2.1

/-- The entry an UPDATE makes, and its grant. -/
theorem Handled.entryMade (H : Handled s h) (hs : Settled s) (hw : WindowLaw s) (he : s.windows[i].enabled = true)
    (hspan : 4 * span.toNat < 2 ^ s.windows[i].sizeCode.toNat) (hmask : mask ≠ 0)
    (hwords : words.length = presentCount mask) (hq : h.aq = arrivedQueue s i span mask words)
    (hend : Ended (forwardedEnd h f nak) t) : EntryMade i span mask words s t := by
  have hpass := h.forward_passes f nak
  have huaq : (forwardedEnd h f nak).aq = arrivedQueue s i span mask words := hpass.aq.trans hq
  have huarb : (forwardedEnd h f nak).arb = s.arb := hpass.arb.trans H.arb
  have hacc : t.aq.nextAcc = s.aq.nextAcc + 1 := by rw [hend.aq, arbitrate_nextAcc, huaq]; rfl
  have hbase := spanBase_toNat ((hw i).1 ((hw i).2 he).1) hspan
  have hpos : (presentPositions mask).map (fun k => (arrivedEntry s i span mask words).words[k]) = words :=
    map_placeWords (nodup_presentPositions mask) hwords
  have habsent (k : Position) (hk : present mask k = false) : (arrivedEntry s i span mask words).words[k] = 0 := by
    refine (placeWords_of_not_mem fun hm => ?_).trans (by simp [zeroWords])
    rw [mem_presentPositions.1 hm] at hk
    cases hk
  have hentries : t.aq.entries = s.aq.entries ++ [{ arrivedEntry s i span mask words with
      state := if s.arb.cycle = none ∧ ¬HostChosenFirst s t then .writing else .waiting }] := by
    by_cases hc : s.arb.cycle = none
    · have hnil := (hs.2.2 hc).2
      have hone : (forwardedEnd h f nak).aq.entries = [arrivedEntry s i span mask words] := by
        rw [huaq, arrivedQueue, hnil]
        rfl
      have hgrant := H.entry_granted hs ((congrArg ApplyQueue.entries hpass.aq).symm.trans hone) hc hend
      rw [hend.arb] at hgrant
      rw [hend.aq, arbitrate_entries (huarb ▸ hc), hgrant, hone, hnil]
      by_cases hf : HostChosenFirst s t
      · rw [if_pos hf, if_neg (by decide), if_neg fun hn => hn.2 hf]
        rfl
      · rw [if_neg hf, if_pos rfl, if_pos ⟨hc, hf⟩]
        rfl
    · have hbusy : (forwardedEnd h f nak).arb.cycle.isSome = true := by
        rw [huarb]
        exact Option.isSome_iff_ne_none.2 hc
      rw [hend.aq, arbitrate_of_busy _ hbusy, huaq, if_neg fun hn => hc hn.1]
      rfl
  refine ⟨hacc, by rw [hentries]; simp, by rw [hentries]; simp, fun hb => ?_, fun hc => ?_, fun a ha => ?_⟩
  · rw [hend.arb, arbitrate_of_busy _ (by rw [huarb]; exact hb), huarb]
  · have hnil := (hs.2.2 hc).2
    exact H.entry_granted (a := arrivedEntry s i span mask words) hs (by rw [hq, arrivedQueue, hnil]; rfl) hc hend
  · rw [hentries, List.getLast?_concat] at ha
    cases ha
    exact ⟨rfl, hbase, rfl, rfl, habsent, hpos, head_presentPositions hmask, rfl⟩

end Entry

end Sys2Proof.Machine
end

section
/-! SUPPORT. The handling of an UPDATE in order, with a gap and as a duplicate (R109 to R119), and the statements about
it. -/

namespace Sys2Proof.Machine

/-! ## The lookup and what it makes of the frame (R111 to R115) -/

section InOrder
variable {s t : State} {e g h : Event} {f : Frame} {nak : Bool} {ch : Byte} {span : SpanOffset} {mask : SpanMask}
  {words : List Word}

/-- What the lookup of a frame that is taken leaves: the Apply Queue q and the causes of h. -/
structure Looks (ch : Byte) (span : SpanOffset) (mask : SpanMask) (words : List Word) (f : Frame) (s : State)
    (h : Event) : Prop where
  consumed : (∀ i : WinIdx, ¬Carries s i ch) → h.aq = s.aq
  owned : ∀ i : WinIdx, Carries s i ch → s.windows[i].kind = .owned →
    h.aq = s.aq ∧ .ownerConflict i f.source f.seq ∈ h.raised
  outside : ∀ i : WinIdx, Carries s i ch → s.windows[i].kind = .mirror →
    2 ^ s.windows[i].sizeCode.toNat ≤ 4 * span.toNat → h.aq = s.aq ∧ .rangeError i f.source f.seq ∈ h.raised
  entry : ∀ i : WinIdx, Carries s i ch → s.windows[i].kind = .mirror →
    4 * span.toNat < 2 ^ s.windows[i].sizeCode.toNat →
      (s.aq.entries.length < 24 → h.aq = arrivedQueue s i span mask words) ∧
      (24 ≤ s.aq.entries.length → h.aq = s.aq)

theorem Looks.lookedUp (hk : Looks ch span mask words f s h) (H : Handled s h) (hs : Settled s) (hw : WindowLaw s)
    (hmask : mask ≠ 0) (hwords : words.length = presentCount mask) (hend : Ended (forwardedEnd h f nak) t)
    (hpend : ∀ o ∈ h.raised, Pending t o.cause) : LookedUp ch span mask words s t := by
  refine ⟨fun hn => H.aq_eq hs (hk.consumed hn) hend, fun i hi => ⟨fun ho => ?_, fun hm hout => ?_, fun hm hin => ?_⟩⟩
  · obtain ⟨haq, hraised⟩ := hk.owned i hi ho
    exact ⟨H.aq_eq hs haq hend, hpend _ hraised⟩
  · obtain ⟨haq, hraised⟩ := hk.outside i hi hm hout
    exact ⟨H.aq_eq hs haq hend, hpend _ hraised⟩
  · obtain ⟨hmade, hfull⟩ := hk.entry i hi hm hin
    exact ⟨fun hlen => H.entryMade hs hw hi.1 hin hmask hwords (hmade hlen) hend,
      fun hlen => H.aq_eq hs (hfull hlen) hend⟩

/-- An event of an arrival, short of the lookup: the Sequence Table and STALE flags have changed. -/
structure Placed (P : WinIdx → Prop) [DecidablePred P] (s : State) (e g : Event) : Prop where
  state : ∃ src ws, g.toState = (e.toState.withSources src).withWindows ws
  windows : ∀ i : WinIdx, g.windows[i] = staled (P i) s.windows[i]
  aq : g.aq = s.aq
  level : g.node.level = e.node.level

section Placed
variable {P : WinIdx → Prop} [DecidablePred P] (hp : Placed P s e g)
include hp

theorem Placed.fields (i : WinIdx) : g.windows[i].kind = s.windows[i].kind ∧ g.windows[i].enabled = s.windows[i].enabled ∧
    g.windows[i].channel = s.windows[i].channel ∧ g.windows[i].base = s.windows[i].base ∧
    g.windows[i].sizeCode = s.windows[i].sizeCode ∧ g.windows[i].diverged = s.windows[i].diverged := by
  rw [hp.windows i]
  exact staled_fields _ _

/-- The window the lookup finds is the one that carries the channel. -/
theorem Placed.carries_of_lookup {i : WinIdx} (h : channelLookup g.windows ch = some i) : Carries s i ch := by
  obtain ⟨-, he, hc, -⟩ := hp.fields i
  obtain ⟨h1, h2⟩ := channelLookup_some h
  exact ⟨he.symm.trans h1, hc.symm.trans h2⟩

theorem Placed.not_carries_of_lookup (h : channelLookup g.windows ch = none) (i : WinIdx) : ¬Carries s i ch := by
  intro hi
  obtain ⟨-, he, hc, -⟩ := hp.fields i
  obtain ⟨j, hj⟩ := channelLookup_isSome (ws := g.windows) (ch := ch) ⟨he.trans hi.1, hc.trans hi.2⟩
  rw [h] at hj
  cases hj

theorem Placed.holdsSpan (i : WinIdx) :
    g.windows[i].holdsSpan span = true ↔ 4 * span.toNat < 2 ^ s.windows[i].sizeCode.toNat := by
  obtain ⟨-, -, -, -, hs, -⟩ := hp.fields i
  rw [Window.holdsSpan, Window.size, hs, decide_eq_true_iff]

/-- The new entry is made from the state of the arrival. -/
theorem Placed.created (i : WinIdx) :
    createApplyEntry (g.windows[i].spanBase span) mask words i g.toState =
      g.toState.withAq (arrivedQueue s i span mask words) := by
  have hb : g.windows[i].spanBase span = s.windows[i].spanBase span := by
    obtain ⟨-, -, -, hb, -⟩ := hp.fields i
    rw [Window.spanBase, hb]
    rfl
  rw [createApplyEntry, hb, hp.aq]
  rfl

end Placed

/-- Only the window that carries the channel matters to the lookup (R28). -/
theorem Looks.of_carries {i : WinIdx} (hw : WindowLaw s) (hi : Carries s i ch)
    (howned : s.windows[i].kind = .owned → h.aq = s.aq ∧ .ownerConflict i f.source f.seq ∈ h.raised)
    (houtside : s.windows[i].kind = .mirror → 2 ^ s.windows[i].sizeCode.toNat ≤ 4 * span.toNat →
      h.aq = s.aq ∧ .rangeError i f.source f.seq ∈ h.raised)
    (hentry : s.windows[i].kind = .mirror → 4 * span.toNat < 2 ^ s.windows[i].sizeCode.toNat →
      (s.aq.entries.length < 24 → h.aq = arrivedQueue s i span mask words) ∧
      (24 ≤ s.aq.entries.length → h.aq = s.aq)) : Looks ch span mask words f s h := by
  refine ⟨fun hn => absurd hi (hn i), fun j hj => ?_, fun j hj => ?_, fun j hj => ?_⟩
  all_goals cases hw.unique hi hj
  · exact howned
  · exact houtside
  · exact hentry

/-- The frame is for the MIRROR window i and finds no room in the Apply Queue (R115). -/
def FindsNoRoom (s : State) (ch : Byte) (span : SpanOffset) (i : WinIdx) : Prop :=
  Carries s i ch ∧ s.windows[i].kind = .mirror ∧ 4 * span.toNat < 2 ^ s.windows[i].sizeCode.toNat ∧
    24 ≤ s.aq.entries.length

/-- What the lookup of a frame that is taken leaves of the event before it. -/
structure LooksFrom (ch : Byte) (span : SpanOffset) (mask : SpanMask) (words : List Word) (f : Frame) (s : State)
    (g k : Event) : Prop where
  state : ∃ q ws, k.toState = (g.toState.withAq q).withWindows ws
  raised : ∀ o ∈ g.raised, o ∈ k.raised
  looks : Looks ch span mask words f s k
  kept : (∀ i, ¬FindsNoRoom s ch span i) → ∀ j : WinIdx, k.windows[j] = g.windows[j]
  dropped : ∀ i, FindsNoRoom s ch span i → (∀ j : WinIdx, k.windows[j] = staled (i = j) g.windows[j]) ∧
    (g.windows[i].stale = false → .staleMarked i ∈ k.raised)

section Placed
variable {P : WinIdx → Prop} [DecidablePred P] (hp : Placed P s e g) (hw : WindowLaw s)
include hp hw

/-- A frame that is looked up is taken, unless it finds no room at NORMAL. -/
theorem Placed.inOrder_takes (hroom : g.node.level ≠ .normal ∨ ∀ i, ¬FindsNoRoom s ch span i) :
    ∃ k, g.inOrder f ch span mask words = (k.take f.source, false) ∧ LooksFrom ch span mask words f s g k := by
  rcases g.inOrder_cases f ch span mask words with ⟨hnone, he⟩ | ⟨i, hi, hcase⟩
  · have hn := hp.not_carries_of_lookup hnone
    refine ⟨g, he, ⟨_, _, rfl⟩, fun _ ho => ho, ⟨fun _ => hp.aq, ?_, ?_, ?_⟩, fun _ _ => rfl,
      fun i hi => absurd hi.1 (hn i)⟩
    all_goals exact fun i hi => absurd hi (hn i)
  · have hc := hp.carries_of_lookup hi
    obtain ⟨hkind, -⟩ := hp.fields i
    have hspan := hp.holdsSpan (span := span) i
    rw [hkind, hp.aq] at hcase
    rcases hcase with ⟨hk, he⟩ | ⟨hk, hout, he⟩ | ⟨hk, hin, hcase⟩
    · refine ⟨_, he, ⟨_, _, rfl⟩, fun _ ho => List.mem_append_left _ ho, .of_carries hw hc
        (fun _ => ⟨hp.aq, List.mem_append_right _ (.head _)⟩) ?_ ?_, fun _ _ => rfl, fun j ⟨hj, hm, _⟩ => ?_⟩
      · exact fun hm => (nomatch hk.symm.trans hm)
      · exact fun hm => (nomatch hk.symm.trans hm)
      · cases hw.unique hc hj
        exact nomatch hk.symm.trans hm
    · have hout : ¬4 * span.toNat < 2 ^ s.windows[i].sizeCode.toNat := by
        rw [← hspan, hout]
        exact Bool.false_ne_true
      refine ⟨_, he, ⟨_, _, rfl⟩, fun _ ho => List.mem_append_left _ ho, .of_carries hw hc
        (fun ho => (nomatch hk.symm.trans ho)) (fun _ _ => ⟨hp.aq, List.mem_append_right _ (.head _)⟩)
        (fun _ h => absurd h hout), fun _ _ => rfl, fun j ⟨hj, _, hin, _⟩ => ?_⟩
      cases hw.unique hc hj
      exact absurd hin hout
    · have hin := hspan.1 hin
      have hlooks {k : Event} (hmade : s.aq.entries.length < 24 → k.aq = arrivedQueue s i span mask words)
          (hfull : 24 ≤ s.aq.entries.length → k.aq = s.aq) : Looks ch span mask words f s k :=
        .of_carries hw hc (fun ho => (nomatch hk.symm.trans ho)) (fun _ h => absurd hin (Nat.not_lt.2 h))
          fun _ _ => ⟨hmade, hfull⟩
      rcases hcase with ⟨hlen, he⟩ | ⟨hlen, hl, -⟩ | ⟨hlen, -, he⟩
      · have hst := hp.created (span := span) (mask := mask) (words := words) i
        refine ⟨_, he, ⟨arrivedQueue s i span mask words, g.windows, hst.trans rfl⟩, fun _ ho => ho,
          hlooks (fun _ => congrArg State.aq hst) fun h => absurd hlen (Nat.not_lt.2 h), fun _ _ => rfl,
          fun j ⟨_, _, _, hfull⟩ => absurd hlen (Nat.not_lt.2 hfull)⟩
      · exact absurd ⟨hc, hk, hin, hlen⟩ (hroom.resolve_left (not_not.2 hl) i)
      · obtain ⟨ws, hst⟩ := g.requestStale_toState i
        refine ⟨_, he, ⟨g.aq, ws, hst⟩, g.requestStale_raised i,
          hlooks (fun h => absurd h (Nat.not_lt.2 hlen)) fun _ => ?_,
          fun hn => absurd ⟨hc, hk, hin, hlen⟩ (hn i), fun j ⟨hj, _⟩ => ?_⟩
        · rw [hst]
          exact hp.aq
        · cases hw.unique hc hj
          exact ⟨g.requestStale_window i, Event.requestStale_caused (hkind.trans hk)⟩

/-- A frame that finds no room at NORMAL is objected to (R115). -/
theorem Placed.inOrder_objects {i : WinIdx} (hn : FindsNoRoom s ch span i) (hl : g.node.level = .normal) :
    g.inOrder f ch span mask words = (g, true) := by
  obtain ⟨hi, hm, hin, hlen⟩ := hn
  rcases g.inOrder_cases f ch span mask words with ⟨hnone, -⟩ | ⟨j, hj, hcase⟩
  · exact absurd hi (hp.not_carries_of_lookup hnone i)
  · cases hw.unique hi (hp.carries_of_lookup hj)
    obtain ⟨hkind, -⟩ := hp.fields i
    rw [hkind, hp.aq] at hcase
    rcases hcase with ⟨hk, -⟩ | ⟨-, hout, -⟩ | ⟨-, -, hcase⟩
    · exact nomatch hk.symm.trans hm
    · rw [(hp.holdsSpan i).2 hin] at hout
      cases hout
    · rcases hcase with ⟨h, -⟩ | ⟨-, -, he⟩ | ⟨-, h, -⟩
      · exact absurd h (Nat.not_lt.2 hlen)
      · exact he
      · exact absurd hl h

/-- The arrival of a frame that is looked up and taken. -/
theorem Placed.taken (hg : Greeted s e) (hs : Settled s) (hr : s.resetN = true) (hm : s.node.mode ≠ .offline)
    (hmask : mask ≠ 0) (hwords : words.length = presentCount mask)
    (hroom : g.node.level ≠ .normal ∨ ∀ i, ¬FindsNoRoom s ch span i) :
    ∃ k t, ((g.inOrder f ch span mask words).1.forward f (f.nak || (g.inOrder f ch span mask words).2)).finish = t ∧
      t.sources = g.sources.set f.source g.sources[f.source].take ∧
      t.out = s.outAfterForward { f with hops := f.hops + 1 } ∧ t.link = s.linkAfterFrame ∧ t.mem = s.mem ∧
      LookedUp ch span mask words s t ∧ WindowsAre (fun i => k.windows[i]) s t ∧
      (∀ o ∈ k.raised, Pending t o.cause) ∧ LooksFrom ch span mask words f s g k := by
  obtain ⟨k, he, hk⟩ := hp.inOrder_takes (f := f) (mask := mask) (words := words) hw hroom
  obtain ⟨src, ws, hst⟩ := hp.state
  obtain ⟨q, vs, hstk⟩ := hk.state
  have hdiv (i : WinIdx) : k.windows[i].diverged = s.windows[i].diverged := by
    have hwin : k.windows[i].diverged = g.windows[i].diverged := by
      by_cases hn : ∃ j, FindsNoRoom s ch span j
      · obtain ⟨j, hj⟩ := hn
        rw [(hk.dropped j hj).1 i]
        exact (staled_fields _ _).2.2.2.2.2
      · rw [hk.kept (not_exists.1 hn) i]
    obtain ⟨-, -, -, -, -, hd⟩ := hp.fields i
    exact hwin.trans hd
  have hks : k.sources = g.sources := by rw [hstk]; rfl
  have hstate : (k.take f.source).toState = ((e.toState.withSources (updateSource f.source SeqEntry.take
      k.toState).sources).withAq k.aq).withWindows k.windows := by
    show updateSource f.source SeqEntry.take k.toState = _
    rw [hstk, hst]
    rfl
  have H : Handled s (k.take f.source) := hg.handled hs hr hm hstate hdiv
  obtain ⟨t, ht, h1, h2, h3, h4, -, h6, -, h8, hend⟩ := H.forwarded f f.nak
  have hlooks : Looks ch span mask words f s (k.take f.source) :=
    ⟨hk.looks.consumed, hk.looks.owned, hk.looks.outside, hk.looks.entry⟩
  refine ⟨k, t, ?_, h1.trans ?_, h2, h3, h4, hlooks.lookedUp H hs hw hmask hwords hend h6, h8, h6, hk⟩
  · rw [he, Bool.or_false]
    exact ht
  · rw [← hks]
    rfl

omit hw in
/-- The arrival of a frame that is not taken. -/
theorem Placed.passes (hg : Greeted s e) (hs : Settled s) (hr : s.resetN = true) (hm : s.node.mode ≠ .offline)
    (nak : Bool) : ∃ t, (g.forward f nak).finish = t ∧ t.aq = s.aq ∧ t.mem = s.mem ∧ t.sources = g.sources ∧
      t.out = s.outAfterForward (passedOn f nak) ∧ WindowsAre (fun i => g.windows[i]) s t ∧
      ∀ o ∈ g.raised, Pending t o.cause := by
  obtain ⟨src, ws, hst⟩ := hp.state
  have H : Handled s g := hg.handled hs hr hm (src := src) (q := e.aq) (ws := ws) (by rw [hst]; rfl) fun i => by
    obtain ⟨-, -, -, -, -, hd⟩ := hp.fields i
    rw [hst] at hd
    exact hd
  obtain ⟨t, ht, h1, h2, -, h4, -, h6, -, h8, hend⟩ := H.forwarded f nak
  exact ⟨t, ht, H.aq_eq hs hp.aq hend, h4, h1, h2, h8, h6⟩

end Placed

/-! ## The events before the lookup (R107, R109, R116 to R118) -/

section Before
variable (hg : Greeted s e)
include hg

theorem Greeted.placed_on_source {x : SeqEntry → SeqEntry} :
    Placed (fun _ => False) s e (e.on (updateSource f.source x)) := by
  obtain ⟨-, -, hwin, -, -, -, -, -, haq, -⟩ := hg.fields
  refine ⟨⟨(updateSource f.source x e.toState).sources, e.windows, rfl⟩, fun i => ?_, haq, rfl⟩
  rw [staled_of_not id, ← hwin]
  rfl

theorem Greeted.placed : Placed (fun _ => False) s e e := by
  obtain ⟨-, -, hwin, -, -, -, -, -, haq, -⟩ := hg.fields
  exact ⟨⟨e.sources, e.windows, rfl⟩, fun i => by rw [staled_of_not id, hwin], haq, rfl⟩

/-- The event of an adoption (R107). -/
def Event.adopted (e : Event) (f : Frame) : Event :=
  (e.on (updateSource f.source fun x => x.rebase f.seq)).raise (.sourceAdopted f.source f.seq)

theorem Greeted.placed_adopted : Placed (fun _ => False) s e (e.adopted f) := by
  obtain ⟨hst, hwin, haq, hl⟩ := hg.placed_on_source (f := f) (x := fun x => x.rebase f.seq)
  exact ⟨hst, hwin, haq, hl⟩

/-- The event of a skipped gap (R117). -/
def Event.skipped (e : Event) (f : Frame) : Event :=
  ((e.on (updateSource f.source SeqEntry.countGap)).requestStaleAll (enabledMirrors e.windows)).on
    (updateSource f.source fun x => x.rebase f.seq)

theorem Greeted.placed_skipped : Placed (fun i => i ∈ enabledMirrors s.windows) s e (e.skipped f) := by
  obtain ⟨-, -, hwin, -, -, -, -, -, haq, -⟩ := hg.fields
  obtain ⟨ws, hst⟩ := (e.on (updateSource f.source SeqEntry.countGap)).requestStaleAll_toState (enabledMirrors e.windows)
  have hstate : ∃ src, (e.skipped f).toState = (e.toState.withSources src).withWindows ws := by
    refine ⟨(updateSource f.source (fun x => x.rebase f.seq)
      (updateSource f.source SeqEntry.countGap e.toState)).sources, ?_⟩
    rw [Event.skipped, Event.on_toState, hst]
    rfl
  obtain ⟨src, hstate⟩ := hstate
  refine ⟨⟨src, ws, hstate⟩, fun i => ?_, by rw [hstate]; exact haq, by rw [hstate]; rfl⟩
  rw [← hwin]
  exact Event.requestStaleAll_window (e.on (updateSource f.source SeqEntry.countGap)) (enabledMirrors e.windows) i

theorem Greeted.skipped_sources : (e.skipped f).sources =
    s.sources.set f.source (s.sources[f.source].countGap.rebase f.seq) := by
  obtain ⟨-, -, -, -, -, -, -, hsources, -⟩ := hg.fields
  obtain ⟨ws, hst⟩ := (e.on (updateSource f.source SeqEntry.countGap)).requestStaleAll_toState (enabledMirrors e.windows)
  show (updateSource f.source (fun x => x.rebase f.seq) _).sources = _
  rw [hst, ← hsources]
  show (e.sources.set f.source _).set f.source _ = _
  rw [Vector.set_set]
  congr 2
  exact Vector.getElem_set_self _

theorem Greeted.skipped_raised {i : WinIdx} (he : s.windows[i].enabled = true) (hk : s.windows[i].kind = .mirror)
    (hst : s.windows[i].stale = false) : .staleMarked i ∈ (e.skipped f).raised := by
  obtain ⟨-, -, hwin, -⟩ := hg.fields
  rw [← hwin] at he hk hst
  exact Event.requestStaleAll_caused (e := e.on (updateSource f.source SeqEntry.countGap))
    (mem_enabledMirrors.2 ⟨he, hk⟩) hk hst

end Before

/-! ## The distance of a frame (R110) -/

theorem distance_eq (x : SeqEntry) (q : Byte) : distance x q = (q.toNat + 256 - x.expected.toNat) % 256 := by
  have := x.expected.isLt
  rw [distance, BitVec.toNat_sub]
  omega

theorem Event.updateArrived_unknown (h : e.sources[f.source].known = false) :
    e.updateArrived f ch span mask words = (e.adopted f).inOrder f ch span mask words := if_pos h

variable (hk : e.sources[f.source].known ≠ false)
include hk

theorem Event.updateArrived_inOrder (h : e.sources[f.source].expected = f.seq) :
    e.updateArrived f ch span mask words = e.inOrder f ch span mask words := by
  have hd : distance e.sources[f.source] f.seq = 0 := by rw [distance, h, BitVec.sub_self]; rfl
  rw [Event.updateArrived, if_neg hk, if_pos hd]

theorem Event.updateArrived_gap (h1 : distance e.sources[f.source] f.seq ≠ 0)
    (h2 : distance e.sources[f.source] f.seq < 128) : e.updateArrived f ch span mask words =
      if e.node.level = .normal then (e.on (updateSource f.source SeqEntry.countGap), true)
      else (e.skipped f).inOrder f ch span mask words := by
  rw [Event.updateArrived, if_neg hk, if_neg h1, if_pos h2]
  rfl

theorem Event.updateArrived_duplicate (h : 128 ≤ distance e.sources[f.source] f.seq) :
    e.updateArrived f ch span mask words = (e.on (updateSource f.source SeqEntry.countDuplicate), false) := by
  rw [Event.updateArrived, if_neg hk, if_neg (by omega), if_neg (by omega)]

end InOrder

theorem staled_congr {P Q : Prop} [Decidable P] [Decidable Q] (h : P ↔ Q) (w : Window) : staled P w = staled Q w := by
  simp only [staled, h]

/-! ## The statements -/

section Statements
variable {s t : State} {bytes : List Byte} {f : Frame} {ch : Byte} {span : SpanOffset} {mask : SpanMask}
  {words : List Word}

/-- The arrival of an UPDATE of another source at a running node, after its good-frame report. -/
theorem exec_updateArrival (hp : parseFrame bytes = some f) (hb : f.body = .update ch span mask words)
    (hh : f.hops ≠ 15) (hlevel : LevelLaw s) (ha : Arriving s bytes) (hsrc : f.source ≠ s.node.nodeId)
    (hm : s.node.mode ≠ .offline) : ∃ e, Greeted s e ∧ exec (.frameArrival bytes) s = .next
      ((e.updateArrived f ch span mask words).1.forward f (f.nak || (e.updateArrived f ch span mask words).2)).finish := by
  obtain ⟨e, hg, hexec⟩ := exec_arrival hp ha hlevel
  obtain ⟨hid, hem, -⟩ := hg.node
  refine ⟨e, hg, ?_⟩
  rw [hexec, Event.goodArrival_update (by rwa [hid]) hh (by rwa [hem]) hb]

theorem WindowsAre.congr {a b : WinIdx → Window} (h : WindowsAre a s t) (hab : ∀ i, a i = b i) : WindowsAre b s t :=
  funext hab ▸ h

/-- The event from which a frame in order, or of an UNKNOWN source, is looked up, and the entry it leaves (R107,
R109). -/
theorem Greeted.in_order {e : Event} (hg : Greeted s e)
    (hin : s.sources[f.source].known = true → s.sources[f.source].expected = f.seq) :
    ∃ g, Placed (fun _ => False) s e g ∧ e.updateArrived f ch span mask words = g.inOrder f ch span mask words ∧
      g.sources.set f.source g.sources[f.source].take = s.sources.set f.source
        { s.sources[f.source] with known := true, expected := f.seq + 1, taken := s.sources[f.source].taken + 1 } ∧
      (s.sources[f.source].known = true → g.sources = s.sources) ∧
      (s.sources[f.source].known = false → .sourceAdopted f.source f.seq ∈ g.raised ∧
        g.sources = s.sources.set f.source { s.sources[f.source] with known := true, expected := f.seq }) := by
  obtain ⟨-, -, -, -, -, -, -, hsources, -⟩ := hg.fields
  cases hk : s.sources[f.source].known with
  | true =>
    rw [← hsources] at hk hin ⊢
    refine ⟨e, hg.placed, Event.updateArrived_inOrder (by rw [hk]; decide) (hin hk), ?_, fun _ => rfl,
      fun h => nomatch h⟩
    rw [SeqEntry.take, hin hk, hk]
  | false =>
    have hrebased : (e.adopted f).sources = s.sources.set f.source (s.sources[f.source].rebase f.seq) := by
      rw [← hsources]
      rfl
    refine ⟨_, hg.placed_adopted, Event.updateArrived_unknown (by rw [hsources]; exact hk), ?_, (fun h => nomatch h),
      fun _ => ⟨List.mem_append_right _ (.head _), hrebased⟩⟩
    rw [hrebased, Vector.set_set]
    congr 1
    exact congrArg SeqEntry.take (Vector.getElem_set_self _)

end Statements

/-- Settles O25: the lookup of a frame in order. -/
theorem updateInOrderIsTaken : Obligations.UpdateInOrderIsTaken := by
  intro bytes f ch span mask words s hp hb hh hs hmode hlevel hw ha hsrc hm hin hroom
  obtain ⟨e, hg, hexec⟩ := exec_updateArrival hp hb hh hlevel ha hsrc hm
  obtain ⟨g, hplaced, hupd, hsources, -, hadopted⟩ := hg.in_order (ch := ch) (span := span) (mask := mask)
    (words := words) hin
  obtain ⟨hmask, hwords⟩ := (sendable_of_parseFrame hp).1 ch span mask words hb
  have hno (i : WinIdx) : ¬FindsNoRoom s ch span i := fun ⟨hi, hkind, hspan, hfull⟩ => by
    rcases hroom with hn | hlen | ⟨j, hj, ho | hout⟩
    · exact hn i hi
    · omega
    · cases hw.unique hi hj
      exact nomatch ho.symm.trans hkind
    · cases hw.unique hi hj
      omega
  obtain ⟨k, t, ht, h1, h2, h3, h4, h5, h6, h7, hk⟩ :=
    hplaced.taken hw (f := f) hg hs ha.1 hm hmask hwords (.inr hno)
  refine ⟨t, by rw [hexec, hupd, ht], h1.trans hsources, h2, h3, h4, fun hu => ?_, h5, h6.congr fun i => ?_⟩
  · exact h7 _ (hk.raised _ (hadopted hu).1)
  · rw [hk.kept hno i, hplaced.windows i, staled_of_not id]

/-- Settles O26: the objection at NORMAL and the drop at DEGRADED. -/
theorem updateWithoutRoomIsObjectedToOrDropped : Obligations.UpdateWithoutRoomIsObjectedToOrDropped := by
  intro bytes f ch span mask words i s hp hb hh hs hmode hlevel hw ha hsrc hm hin hi hkind hspan hlen
  obtain ⟨e, hg, hexec⟩ := exec_updateArrival hp hb hh hlevel ha hsrc hm
  obtain ⟨g, hplaced, hupd, hsources, hknown, hadopted⟩ := hg.in_order (ch := ch) (span := span) (mask := mask)
    (words := words) hin
  obtain ⟨hmask, hwords⟩ := (sendable_of_parseFrame hp).1 ch span mask words hb
  have hfull : FindsNoRoom s ch span i := ⟨hi, hkind, hspan, hlen.ge⟩
  have hl : g.node.level = .normal ↔ ObjectsAfterGoodFrame s := by
    rw [hplaced.level]
    exact hg.level hm
  refine ⟨fun ho => ?_, fun hno => ?_⟩
  · have hobj := hplaced.inOrder_objects (f := f) (mask := mask) (words := words) hw hfull (hl.2 ho)
    obtain ⟨t, ht, h1, h2, h3, h4, h5, h6⟩ := hplaced.passes (f := f) hg hs ha.1 hm true
    refine ⟨t, ?_, h1, fun hk => h3.trans (hknown hk), fun hk => ⟨h6 _ (hadopted hk).1, h3.trans (hadopted hk).2⟩, h2,
      h4, h5.congr fun j => ?_⟩
    · rw [hexec, hupd, hobj, Bool.or_true, ht]
    · rw [hplaced.windows j, staled_of_not id]
  · obtain ⟨k, t, ht, h1, h2, h3, h4, h5, h6, h7, hk⟩ :=
      hplaced.taken hw (f := f) hg hs ha.1 hm hmask hwords (.inl fun h => hno (hl.1 h))
    obtain ⟨hwin, hmarked⟩ := hk.dropped i hfull
    refine ⟨t, by rw [hexec, hupd, ht], ((h5.2 i hi).2.2 hkind hspan).2 hlen.ge, h4, h1.trans hsources, fun hu => ?_,
      h6.congr fun j => ?_, fun hst => h7 _ (hmarked ?_), h2⟩
    · exact h7 _ (hk.raised _ (hadopted hu).1)
    · rw [hwin j, hplaced.windows j, staled_of_not id]
      by_cases hij : i = j
      · subst hij
        rw [staled, if_pos ⟨rfl, hkind⟩, if_pos rfl]
      · rw [staled_of_not hij, if_neg (Ne.symm hij)]
    · rw [hplaced.windows i, staled_of_not id]
      exact hst

/-- Settles O27: the gap at each level and the duplicate. -/
theorem gapsAndDuplicates : Obligations.GapsAndDuplicates := by
  intro bytes f ch span mask words s hp hb hh hs hmode hlevel hw ha hsrc hm hknown x d gaps duplicates skipped
  obtain ⟨e, hg, hexec⟩ := exec_updateArrival hp hb hh hlevel ha hsrc hm
  obtain ⟨hmask, hwords⟩ := (sendable_of_parseFrame hp).1 ch span mask words hb
  obtain ⟨-, -, -, -, -, -, -, hsources, -⟩ := hg.fields
  have hk : e.sources[f.source].known ≠ false := by rw [hsources, hknown]; decide
  have hd : distance e.sources[f.source] f.seq = d := by rw [hsources]; exact distance_eq _ _
  have hcounted (c : SeqEntry → SeqEntry) :
      (e.on (updateSource f.source c)).sources = s.sources.set f.source (c x) := by
    rw [← hsources]
    show e.sources.set f.source (c e.sources[f.source]) = _
    rw [hsources]
  have hgap (h1 : 1 ≤ d) (h2 : d ≤ 127) := Event.updateArrived_gap (ch := ch) (span := span) (mask := mask)
    (words := words) hk (by omega) (by omega)
  refine ⟨fun h1 h2 ho => ?_, fun h1 h2 hno => ?_, fun h1 => ?_⟩
  · have hplaced := hg.placed_on_source (f := f) (x := SeqEntry.countGap)
    obtain ⟨t, ht, h3, h4, h5, h6, h7, -⟩ := hplaced.passes (f := f) hg hs ha.1 hm true
    refine ⟨t, ?_, h3, h4, (h5.trans (hcounted _)).trans ?_, h6, h7.congr fun i => ?_⟩
    · rw [hexec, hgap h1 h2, if_pos ((hg.level hm).2 ho), Bool.or_true, ht]
    · rw [SeqEntry.countGap, satSucc16_eq]
    · rw [hplaced.windows i, staled_of_not id]
  · have hplaced := hg.placed_skipped (f := f)
    have hl : e.node.level ≠ .normal := fun h => hno ((hg.level hm).1 h)
    obtain ⟨k, t, ht, h3, h4, -, h6, h7, h8, h9, hkfrom⟩ :=
      hplaced.taken hw (f := f) hg hs ha.1 hm hmask hwords (.inl (by rw [hplaced.level]; exact hl))
    refine ⟨t, ?_, h6, h3.trans ?_, h7, h8.congr fun i => ?_, fun i he hkind hst => ?_, h4⟩
    · rw [hexec, hgap h1 h2, if_neg hl, ht]
    · rw [hg.skipped_sources, Vector.set_set]
      congr 1
      refine (congrArg SeqEntry.take (Vector.getElem_set_self _)).trans ?_
      rw [SeqEntry.countGap, satSucc16_eq, SeqEntry.rebase, SeqEntry.take, ← hknown]
    · have hskipped : skipped i = staled (i ∈ enabledMirrors s.windows) s.windows[i] := by
        by_cases hi : s.windows[i].enabled = true ∧ s.windows[i].kind = .mirror
        · exact (if_pos hi).trans (if_pos ⟨mem_enabledMirrors.2 hi, hi.2⟩).symm
        · exact (if_neg hi).trans (staled_of_not (mt mem_enabledMirrors.1 hi)).symm
      rw [hskipped, ← hplaced.windows i]
      by_cases hn : ∃ j, FindsNoRoom s ch span j
      · obtain ⟨j, hj⟩ := hn
        rw [(hkfrom.dropped j hj).1 i, hplaced.windows i, staled_staled]
        refine staled_congr (or_iff_left_of_imp fun hij => mem_enabledMirrors.2 ?_) _
        rw [← hij]
        exact ⟨hj.1.1, hj.2.1⟩
      · exact hkfrom.kept (not_exists.1 hn) i
    · exact h9 _ (hkfrom.raised _ (hg.skipped_raised he hkind hst))
  · have hplaced := hg.placed_on_source (f := f) (x := SeqEntry.countDuplicate)
    obtain ⟨t, ht, h3, h4, h5, h6, h7, -⟩ := hplaced.passes (f := f) hg hs ha.1 hm f.nak
    refine ⟨t, ?_, h3, h4, (h5.trans (hcounted _)).trans ?_, h6, h7.congr fun i => ?_⟩
    · rw [hexec, Event.updateArrived_duplicate hk (by omega), Bool.or_false, ht]
    · rw [SeqEntry.countDuplicate, satSucc16_eq]
    · rw [hplaced.windows i, staled_of_not id]

end Sys2Proof.Machine
end

section
/-! SUPPORT. The Attention Unit: the causes of an event and their order (R161 to R163), what a command adds to the Incident
Queue (R166), ATTN (R164), and the commands that serve them (R168 to R170), with the statement about them. -/

namespace Sys2Proof.Machine

/-! ## Raising a cause (R162, R166, R173) -/

section Causes
variable {o : Occurrence} {s : State}

theorem causeBit_iff (o : Occurrence) (k : Fin 14) : (causeBit o).getLsbD k.val = true ↔ k.val + 1 = o.cause := by
  have hpos : 1 ≤ o.cause := by
    unfold Occurrence.cause
    split <;> omega
  have hk := k.isLt
  rw [causeBit, BitVec.getLsbD_shiftLeft, BitVec.getLsbD_one]
  simp only [Bool.and_eq_true, decide_eq_true_eq, Bool.not_eq_true', decide_eq_false_iff_not]
  omega

theorem appendIncident_room (h : s.attn.queue.length < 8) : appendIncident s o = s.withAttn { s.attn with
    raisedSet := s.attn.raisedSet ||| causeBit o
    queue := s.attn.queue ++ [{ what := o, time := s.node.timebase }] } := if_pos h

theorem appendIncident_full (h : 8 ≤ s.attn.queue.length) : appendIncident s o =
    (s.withAttn { s.attn with raisedSet := s.attn.raisedSet ||| causeBit o, overflow := true }).withMgmt
      { s.mgmt with txn := { s.mgmt.txn with dropFlag := s.mgmt.txn.dropFlag || s.mgmt.txn.removal.isSome } } :=
  if_neg (Nat.not_lt.2 h)

theorem appendIncident_pending_iff (s : State) (o : Occurrence) (k : Fin 14) :
    (appendIncident s o).attn.raisedSet.getLsbD k.val = true ↔
      s.attn.raisedSet.getLsbD k.val = true ∨ k.val + 1 = o.cause := by
  rw [appendIncident_raisedSet, BitVec.getLsbD_or, Bool.or_eq_true, causeBit_iff]

/-- A record that is dropped sets the drop flag while a removal is pending (R173). -/
theorem appendIncident_mgmt_full (h : 8 ≤ s.attn.queue.length) :
    (s.mgmt.txn.removal = none → (appendIncident s o).mgmt = s.mgmt) ∧
    (s.mgmt.txn.removal.isSome = true →
      (appendIncident s o).mgmt = { s.mgmt with txn := { s.mgmt.txn with dropFlag := true } }) := by
  have hm : (appendIncident s o).mgmt = { s.mgmt with txn := { s.mgmt.txn with
      dropFlag := s.mgmt.txn.dropFlag || s.mgmt.txn.removal.isSome } } := by
    rw [appendIncident_full h]
    rfl
  rw [hm]
  refine ⟨fun hn => ?_, fun hs => ?_⟩
  · rw [Option.isSome_eq_false_iff.2 (Option.isNone_iff_eq_none.2 hn), Bool.or_false]
  · rw [hs, Bool.or_true]

theorem appendIncident_rest (s : State) (o : Occurrence) :
    ((appendIncident s o).withAttn s.attn).withMgmt s.mgmt = s := by
  obtain ⟨a, m, h, -⟩ := appendIncident_eq s o
  rw [h]
  rfl

end Causes

/-! ## The order of the causes of one event (R163) -/

section Order

theorem insertByRank_perm (o : Occurrence) : ∀ l : List Occurrence, (insertByRank o l).Perm (o :: l)
  | [] => .refl _
  | p :: ps => by
    unfold insertByRank
    split
    · exact .refl _
    · exact ((insertByRank_perm o ps).cons p).trans (.swap o p ps)

theorem inRankOrder_perm (os : List Occurrence) : (inRankOrder os).Perm os := by
  have fold (os acc : List Occurrence) : (os.foldl (fun acc o => insertByRank o acc) acc).Perm (os ++ acc) := by
    induction os generalizing acc with
    | nil => exact .refl _
    | cons o os ih => exact (ih _).trans (((insertByRank_perm o acc).append_left os).trans List.perm_middle)
  simpa [inRankOrder] using fold os []

/-- No later occurrence has a lower rank. -/
def Ranked (l : List Occurrence) : Prop := l.Pairwise fun o p => o.rank ≤ p.rank

theorem Ranked.insert {o : Occurrence} : ∀ {l : List Occurrence}, Ranked l → Ranked (insertByRank o l)
  | [], _ => List.pairwise_singleton _ _
  | p :: ps, h => by
    obtain ⟨hp, hps⟩ := List.pairwise_cons.1 h
    unfold insertByRank
    split
    next hlt => exact List.pairwise_cons.2 ⟨fun q hq => by
      rcases List.mem_cons.1 hq with rfl | hq
      · exact hlt.le
      · exact hlt.le.trans (hp q hq), h⟩
    next hle => exact List.pairwise_cons.2 ⟨fun q hq => by
      rcases (mem_insertByRank o q ps).1 hq with rfl | hq
      · exact Nat.not_lt.1 hle
      · exact hp q hq, Ranked.insert hps⟩

theorem inRankOrder_ranked (os : List Occurrence) : Ranked (inRankOrder os) := by
  have fold (os acc : List Occurrence) (h : Ranked acc) : Ranked (os.foldl (fun acc o => insertByRank o acc) acc) := by
    induction os generalizing acc with
    | nil => exact h
    | cons o os ih => exact ih _ h.insert
  exact fold os [] .nil

theorem windowField_lt (o : Occurrence) : (o.window.map Fin.val).getD 0 < 16 := by
  cases o.window with
  | none => decide
  | some w => exact w.isLt

/-- The rank is the order by cause number and then by window index. -/
theorem inOrderOfCauses_of_rank {o p : Occurrence} (h : o.rank ≤ p.rank) : InOrderOfCauses o p := by
  have ho := windowField_lt o
  have hp := windowField_lt p
  unfold Occurrence.rank at h
  rcases Nat.lt_trichotomy o.cause p.cause with hc | hc | hc
  · exact .inl hc
  · refine .inr ⟨hc, fun v hv w hw => ?_⟩
    rw [Option.mem_def.1 hv, Option.mem_def.1 hw, hc] at h
    exact Nat.le_of_add_le_add_left h
  · omega

theorem inRankOrder_inOrderOfCauses (os : List Occurrence) : (inRankOrder os).Pairwise InOrderOfCauses :=
  (inRankOrder_ranked os).imp inOrderOfCauses_of_rank

end Order

/-! ## What a command adds to the Incident Queue -/

section Records
variable {s t u : State} {e : Event} {c : Instr}

/-- Between s and t one event's causes have been recorded: the Incident Queue goes on with records of the present, in their
order, and the overflow flag is set only at a full queue. -/
def Recorded (s t : State) : Prop :=
  ∃ new : List Incident, t.attn.queue = s.attn.queue ++ new ∧
    (∀ r ∈ new, r.time = s.node.timebase ∧ Pending t r.what.cause) ∧
    (new.map Incident.what).Pairwise InOrderOfCauses ∧
    (t.attn.overflow ≠ s.attn.overflow → t.attn.overflow = true ∧ 8 ≤ t.attn.queue.length)

theorem Recorded.of_attn (hq : t.attn.queue = s.attn.queue) (ho : t.attn.overflow = s.attn.overflow) : Recorded s t :=
  ⟨[], by rw [hq, List.append_nil], fun _ h => (nomatch h), .nil, fun h => absurd ho h⟩

theorem Recorded.congr {s' t' : State} (h : Recorded s t) (hs : s.attn.queue = s'.attn.queue)
    (ho : s.attn.overflow = s'.attn.overflow) (hn : s.node.timebase = s'.node.timebase) (ht : t'.attn = t.attn) :
    Recorded s' t' := by
  obtain ⟨new, h1, h2, h3, h4⟩ := h
  rw [← ht] at h1 h4
  refine ⟨new, hs ▸ h1, fun r hr => ?_, h3, ho ▸ h4⟩
  obtain ⟨htime, hp⟩ := h2 r hr
  rw [Pending, ← ht] at hp
  exact ⟨htime.trans hn, hp⟩

/-- The records that a list of causes leaves: those that found room. -/
theorem foldl_appendIncident (os : List Occurrence) (s : State) :
    ∃ new : List Incident, (os.foldl appendIncident s).attn.queue = s.attn.queue ++ new ∧
      (new.map Incident.what).Sublist os ∧ (∀ r ∈ new, r.time = s.node.timebase) ∧
      ((os.foldl appendIncident s).attn.overflow ≠ s.attn.overflow →
        (os.foldl appendIncident s).attn.overflow = true ∧ 8 ≤ (os.foldl appendIncident s).attn.queue.length) := by
  induction os generalizing s with
  | nil => exact ⟨[], (List.append_nil _).symm, .slnil, fun _ h => (nomatch h), fun h => absurd rfl h⟩
  | cons o os ih =>
    obtain ⟨new, hq, hsub, htime, hov⟩ := ih (appendIncident s o)
    rw [List.foldl_cons]
    rw [appendIncident_node] at htime
    by_cases hl : s.attn.queue.length < 8
    · have ha := appendIncident_room (o := o) hl
      have hqueue : (appendIncident s o).attn.queue = s.attn.queue ++ [{ what := o, time := s.node.timebase }] := by
        rw [ha]
        rfl
      refine ⟨{ what := o, time := s.node.timebase } :: new, ?_, hsub.cons_cons o, ?_, ?_⟩
      · rw [hq, hqueue, List.append_assoc]
        rfl
      · intro r hr
        rcases List.mem_cons.1 hr with rfl | hr
        · rfl
        · exact htime r hr
      · rw [ha] at hov ⊢
        exact hov
    · have ha := appendIncident_full (o := o) (Nat.not_lt.1 hl)
      have hqueue : (appendIncident s o).attn.queue = s.attn.queue := by rw [ha]; rfl
      have hset : (appendIncident s o).attn.overflow = true := by rw [ha]; rfl
      rw [hqueue] at hq
      refine ⟨new, hq, hsub.cons o, htime, fun _ => ?_⟩
      have hlen : 8 ≤ (os.foldl appendIncident (appendIncident s o)).attn.queue.length := by
        rw [hq, List.length_append]
        omega
      by_cases hsame : (os.foldl appendIncident (appendIncident s o)).attn.overflow = (appendIncident s o).attn.overflow
      · exact ⟨hsame.trans hset, hlen⟩
      · exact ⟨(hov hsame).1, hlen⟩

theorem Event.commit_recorded (e : Event) : Recorded e.toState e.commit := by
  cases hr : e.resetN with
  | false =>
    have hc : e.commit = e.toState := if_neg (by rw [hr]; decide)
    exact .of_attn (by rw [hc]) (by rw [hc])
  | true =>
    have hc : e.commit = (inRankOrder e.raised).foldl appendIncident e.toState := if_pos hr
    obtain ⟨new, hq, hsub, htime, hov⟩ := foldl_appendIncident (inRankOrder e.raised) e.toState
    rw [← hc] at hq hov
    refine ⟨new, hq, fun r hr' => ⟨htime r hr', Event.pending_commit hr ?_⟩,
      (inRankOrder_inOrderOfCauses e.raised).sublist hsub, hov⟩
    exact (mem_inRankOrder _ _).1 (hsub.subset (List.mem_map_of_mem hr'))

/-- The end of an event records its causes: the choices after it raise none. -/
theorem Event.finish_recorded (ha : e.attn = s.attn) (hn : e.node.timebase = s.node.timebase) (ht : t.attn = e.finish.attn) :
    Recorded s t :=
  e.commit_recorded.congr (congrArg Attention.queue ha) (congrArg Attention.overflow ha) hn (ht.trans e.finish_attn)

theorem Keeps.timebase {v w : State} (h : Keeps v w) : w.node.timebase = v.node.timebase :=
  congrArg (fun x : NodeId × Params × Time => x.2.2) h.settings

theorem executeCommand_recorded (m : Command) (args : List Byte) (hm : m ≠ .softReset) :
    Recorded s (executeCommand m args s) := by
  rw [executeCommand_eq]
  have key : Recorded s (m.effect args s).1 := by
    rw [Command.effect_fst]
    rcases he : m.event args s with _ | e
    · rw [Option.elim_none]
      rcases m.direct_cases args s with h | ⟨-, -, p, h⟩ | ⟨-, i, w, -, -, -, h⟩ | ⟨-, i, -, -, -, h⟩ | ⟨-, i, h⟩ |
        ⟨-, f, h⟩ | ⟨-, f, h⟩ | ⟨-, h⟩
      all_goals
        rw [h]
        exact .of_attn rfl rfl
    · rw [Option.elim_some]
      rcases Command.event_cases he with hk | ⟨i, -, hk⟩ | ⟨-, rfl⟩ | ⟨hs, -⟩
      · exact e.finish_recorded hk.attn hk.timebase rfl
      · exact e.finish_recorded hk.attn hk.timebase rfl
      · exact Event.finish_recorded rfl rfl rfl
      · exact absurd hs hm
  exact key.congr rfl rfl rfl (State.withMgmt_attn _ _)

/-- Every command records the causes of one event at most, ALIGNMENT_LOST apart (R163). -/
theorem exec_recorded (h : exec c s = .next t) (hal : c ≠ .alignmentLost) (hr : c ≠ .hardReset)
    (hend : c ≠ .transactionEnd) (hsoft : ¬Executes s t .softReset) : Recorded s t := by
  cases outcome_of_exec h with
  | event e he =>
    have hk := broughtEvent_keeps he
    rcases eventBase_cases he with hb | ⟨sd, m, -, -, hb⟩ | ⟨hx, -⟩ | ⟨hx, -⟩ | ⟨straps, -, -, hb⟩
    · rw [hb] at hk
      exact e.finish_recorded hk.attn hk.timebase rfl
    · rw [hb] at hk
      rcases memoryServed_cases m s with hs | ⟨-, hs⟩
      all_goals
        rw [hs] at hk
        exact e.finish_recorded hk.attn hk.timebase rfl
    · exact absurd hx hal
    · exact absurd hx hr
    · rw [hb] at hk
      exact e.finish_recorded hk.attn hk.timebase rfl
  | executed m args _ hp =>
    have hm := executes_of_executed (s := s) m args hp
    exact (executeCommand_recorded (s := setMclk true s) m args fun hx => hsoft (hx ▸ hm)).congr rfl rfl rfl rfl
  | removed hx => exact absurd hx hend
  | _ => exact .of_attn rfl rfl

end Records

/-! ## ATTN (R164) -/

theorem attnLow_iff (s : State) : s.attnLow = true ↔ ∃ k : Fin 14,
    s.attn.raisedSet.getLsbD k.val = true ∧ s.attn.enableSet.getLsbD k.val = true := by
  rw [State.attnLow, bne_iff_ne]
  constructor
  · intro h
    by_contra hn
    refine h (BitVec.eq_of_getLsbD_eq fun k hk => ?_)
    rw [BitVec.getLsbD_and, show (0 : CauseSet).getLsbD k = false from BitVec.getLsbD_zero]
    by_contra hk'
    exact hn ⟨⟨k, hk⟩, Bool.and_eq_true_iff.1 (Bool.eq_true_of_not_eq_false hk')⟩
  · rintro ⟨k, h1, h2⟩ h
    have hk : (s.attn.raisedSet &&& s.attn.enableSet).getLsbD k.val = true := by rw [BitVec.getLsbD_and, h1, h2]; rfl
    rw [h, show (0 : CauseSet).getLsbD k.val = false from BitVec.getLsbD_zero] at hk
    cases hk

/-! ## SET_ENABLES and ACK_EVENTS (R168, R169) -/

section Sets
variable {set : BitVec 16} {s : State}

theorem namesOnlyCauses_iff (set : BitVec 16) : namesOnlyCauses set = true ↔ set.toNat < 16384 := by
  have := set.isLt
  rw [namesOnlyCauses, beq_iff_eq, ← BitVec.toNat_inj, BitVec.extractLsb'_toNat, Nat.shiftRight_eq_div_pow]
  simp only [BitVec.ofNat_eq_ofNat, BitVec.toNat_ofNat]
  omega

theorem arg16_bytes (set : BitVec 16) : arg16 (bytes16 set) 0 = set := append_bytes16 set

theorem setEnables_next (hc : Completing s [0x41, set.extractLsb' 8 8, set.extractLsb' 0 8]) :
    exec (.setEnables set) s = .next ((setEnablesEffect set s).1.answered .setEnables
      [set.extractLsb' 8 8, set.extractLsb' 0 8] (setEnablesEffect set s).2) := by
  refine commandRow_answered (c := .setEnables) hc ?_
  show setEnablesEffect (arg16 _ 0) _ = _
  rw [arg16_bytes]
  unfold setEnablesEffect
  split <;> rfl

theorem ackEvents_next (hc : Completing s [0x42, set.extractLsb' 8 8, set.extractLsb' 0 8]) :
    exec (.ackEvents set) s = .next ((ackEventsEffect set s).1.answered .ackEvents
      [set.extractLsb' 8 8, set.extractLsb' 0 8] (ackEventsEffect set s).2) := by
  refine commandRow_answered (c := .ackEvents) hc ?_
  show ackEventsEffect (arg16 _ 0) _ = _
  rw [arg16_bytes]
  unfold ackEventsEffect
  split <;> rfl

theorem ackEventsEffect_named (h : set.toNat < 16384) : ackEventsEffect set s =
    (s.withAttn { s.attn with raisedSet := s.attn.raisedSet &&& ~~~(set.setWidth 14) },
      statusOk :: bytes16 ((s.attn.raisedSet &&& ~~~(set.setWidth 14)).setWidth 16)) :=
  if_pos ((namesOnlyCauses_iff set).2 h)

/-- The flags left are answered in two bytes, the high one first. -/
theorem bytes16_setWidth (left : CauseSet) :
    bytes16 (left.setWidth 16) = [BitVec.ofNat 8 (left.toNat / 256), BitVec.ofNat 8 left.toNat] := by
  have := left.isLt
  have h1 : (left.setWidth 16).extractLsb' 8 8 = BitVec.ofNat 8 (left.toNat / 256) := by
    apply BitVec.eq_of_toNat_eq
    rw [BitVec.extractLsb'_toNat, Nat.shiftRight_eq_div_pow, BitVec.toNat_setWidth, BitVec.toNat_ofNat]
    omega
  have h2 : (left.setWidth 16).extractLsb' 0 8 = BitVec.ofNat 8 left.toNat := by
    apply BitVec.eq_of_toNat_eq
    rw [BitVec.extractLsb'_toNat, Nat.shiftRight_eq_div_pow, BitVec.toNat_setWidth, BitVec.toNat_ofNat]
    omega
  rw [bytes16, h1, h2]

theorem setEnables_badSet (hc : Completing s [0x41, set.extractLsb' 8 8, set.extractLsb' 0 8]) (h : 16384 ≤ set.toNat) :
    exec (.setEnables set) s = .next (s.answered .setEnables [set.extractLsb' 8 8, set.extractLsb' 0 8] [0x03]) := by
  rw [setEnables_next hc, setEnablesEffect, if_neg (mt (namesOnlyCauses_iff set).1 (Nat.not_lt.2 h))]
  rfl

theorem setEnables_replaced (hc : Completing s [0x41, set.extractLsb' 8 8, set.extractLsb' 0 8]) (h : set.toNat < 16384) :
    exec (.setEnables set) s = .next ((s.withAttn { s.attn with enableSet := set.setWidth 14 }).answered .setEnables
      [set.extractLsb' 8 8, set.extractLsb' 0 8] [0x00]) := by
  rw [setEnables_next hc, setEnablesEffect, if_pos ((namesOnlyCauses_iff set).2 h)]
  rfl

theorem ackEvents_badSet (hc : Completing s [0x42, set.extractLsb' 8 8, set.extractLsb' 0 8]) (h : 16384 ≤ set.toNat) :
    exec (.ackEvents set) s = .next (s.answered .ackEvents [set.extractLsb' 8 8, set.extractLsb' 0 8] [0x03]) := by
  rw [ackEvents_next hc, ackEventsEffect, if_neg (mt (namesOnlyCauses_iff set).1 (Nat.not_lt.2 h))]
  rfl

/-- The pending flags left after ACK_EVENTS. -/
def leftAfter (s : State) (set : BitVec 16) : CauseSet := s.attn.raisedSet &&& ~~~(set.setWidth 14)

theorem leftAfter_iff (s : State) (set : BitVec 16) (k : Fin 14) : (leftAfter s set).getLsbD k.val = true ↔
    s.attn.raisedSet.getLsbD k.val = true ∧ set.getLsbD k.val = false := by
  rw [leftAfter, BitVec.getLsbD_and, BitVec.getLsbD_not, BitVec.getLsbD_setWidth, Bool.and_eq_true]
  simp

theorem ackEvents_left (hc : Completing s [0x42, set.extractLsb' 8 8, set.extractLsb' 0 8]) (h : set.toNat < 16384) :
    exec (.ackEvents set) s = .next ((s.withAttn { s.attn with raisedSet := leftAfter s set }).answered .ackEvents
      [set.extractLsb' 8 8, set.extractLsb' 0 8]
      [0x00, BitVec.ofNat 8 ((leftAfter s set).toNat / 256), BitVec.ofNat 8 (leftAfter s set).toNat]) := by
  rw [ackEvents_next hc, ackEventsEffect_named h, bytes16_setWidth]
  rfl

end Sets

/-! ## TAKE_INCIDENT (R170, R173, R191) -/

section Take
variable {s : State}

/-- The counts of TAKE_INCIDENT: the head, the overflow flag and the length of the queue in one byte. -/
theorem takeCounts {n : Nat} (h : n ≤ 8) (head overflow : Bool) : bitAt head 7 ||| bitAt overflow 6 ||| byteOf n =
    BitVec.ofNat 8 ((if head = true then 128 else 0) + ((if overflow = true then 64 else 0) + n)) := by
  have key : ∀ (n : Fin 9) (head overflow : Bool), bitAt head 7 ||| bitAt overflow 6 ||| byteOf n.val =
    BitVec.ofNat 8 ((if head = true then 128 else 0) + ((if overflow = true then 64 else 0) + n.val)) := by decide
  exact key ⟨n, Nat.lt_succ_of_le h⟩ head overflow

theorem bytes24_word (word : WordAddr) : bytes24 (word.setWidth 24) =
    [BitVec.ofNat 8 (word.toNat / 65536), BitVec.ofNat 8 (word.toNat / 256), BitVec.ofNat 8 word.toNat] := by
  have := word.isLt
  have byte (k : Nat) : (word.setWidth 24).extractLsb' k 8 = BitVec.ofNat 8 (word.toNat / 2 ^ k) := by
    apply BitVec.eq_of_toNat_eq
    rw [BitVec.extractLsb'_toNat, Nat.shiftRight_eq_div_pow, BitVec.toNat_setWidth, BitVec.toNat_ofNat,
      Nat.mod_eq_of_lt (a := word.toNat) (b := 2 ^ 24) (by omega)]
  rw [bytes24, byte, byte, byte, Nat.pow_zero, Nat.div_one]
  rfl

theorem takeIncident_next (hc : Completing s [0x43]) :
    exec .takeIncident s = .next ((takeIncidentEffect s).1.answered .takeIncident [] (takeIncidentEffect s).2) :=
  commandRow_answered (c := .takeIncident) hc rfl

theorem takeIncident_empty (hq : s.attn.queue = []) : (takeIncidentEffect s).2 =
    [0x00, BitVec.ofNat 8 ((if s.attn.overflow = true then 64 else 0) + s.attn.queue.length),
      0, 0, 0, 0, 0, 0, 0, 0, 0, 0, 0, 0] := by
  rw [takeIncidentEffect, hq]
  show statusOk :: (bitAt false 7 ||| bitAt s.attn.overflow 6 ||| byteOf 0) :: List.replicate 12 0 = _
  rw [takeCounts (Nat.zero_le 8), if_neg Bool.false_ne_true, Nat.zero_add]
  rfl

theorem takeIncident_head (hlen : s.attn.queue.length ≤ 8) {r : Incident} (hr : r ∈ s.attn.queue.head?) :
    (takeIncidentEffect s).2 = [0x00,
      BitVec.ofNat 8 (128 + ((if s.attn.overflow = true then 64 else 0) + s.attn.queue.length)),
      BitVec.ofNat 8 r.what.cause,
      r.time.extractLsb' 24 8, r.time.extractLsb' 16 8, r.time.extractLsb' 8 8, r.time.extractLsb' 0 8,
      BitVec.ofNat 8 ((r.what.window.map Fin.val).getD 0), BitVec.ofNat 8 ((r.what.source.map Fin.val).getD 0),
      r.what.seq.getD 0, BitVec.ofNat 8 ((r.what.word.getD 0).toNat / 65536),
      BitVec.ofNat 8 ((r.what.word.getD 0).toNat / 256), BitVec.ofNat 8 (r.what.word.getD 0).toNat,
      BitVec.ofNat 8 ((r.what.cls.map Fin.val).getD 0)] := by
  rw [takeIncidentEffect, Option.mem_def.1 hr]
  show statusOk :: (bitAt true 7 ||| bitAt s.attn.overflow 6 ||| byteOf s.attn.queue.length) :: incidentBytes r = _
  rw [takeCounts hlen, if_pos rfl, incidentBytes, bytes24_word]
  rfl

end Take

/-- Settles O54: raising, the order of causes, ATTN and the three commands. -/
theorem eventCommandsServeAttention : Obligations.EventCommandsServeAttention := by
  refine ⟨fun o s => ⟨appendIncident_pending_iff s o, appendIncident_enableSet s o, fun hl => ?_, fun hl => ?_,
      appendIncident_rest s o⟩,
    fun e => ⟨fun hr => ⟨if_pos hr, inRankOrder_perm _, inRankOrder_inOrderOfCauses _⟩, fun hr => if_neg ?_⟩,
    fun c s t h hal hr hend hsoft => exec_recorded h hal hr hend hsoft, attnLow_iff,
    fun set s hc => ⟨setEnables_badSet hc, setEnables_replaced hc⟩,
    fun set s hc => ⟨ackEvents_badSet hc, fun hs => ⟨_, leftAfter_iff s set, ackEvents_left hc hs⟩⟩,
    fun s hcap hc => ⟨fun hq => ?_, fun r hr => ?_⟩⟩
  · rw [appendIncident_room hl]
    exact ⟨rfl, rfl, rfl⟩
  · refine ⟨?_, ?_, appendIncident_mgmt_full hl⟩
    all_goals rw [appendIncident_full hl]; rfl
  · rw [hr]
    exact Bool.false_ne_true
  · rw [takeIncident_next hc, takeIncident_empty hq, takeIncidentEffect, hq]
    rfl
  · obtain ⟨-, -, -, -, -, -, hlen⟩ := hcap
    rw [takeIncident_next hc, takeIncident_head hlen hr, takeIncidentEffect, Option.mem_def.1 hr]

end Sys2Proof.Machine
end
